-- ==== Sys2Proof/Word.lean ====
section
/-! DEFINITION. The word types of the block (R8, R72, R100). -/

namespace Sys2Proof

/-- `UInt8`: a byte of DATA, of the bus or of host RAM (R8). -/
abbrev Byte := BitVec 8

/-- `UInt32`: one register word, and the `Int32` values of the driver read with `BitVec.toInt` (R8, R211). -/
abbrev Word := BitVec 32

/-- The 40-bit spelling of one admitted host access (R100). -/
abbrev Descriptor := BitVec 40

/-- `u7`: an I2C device address (R8, R71). -/
abbrev DeviceAddr := BitVec 7

end Sys2Proof
end

