-- ==== Sys2Proof/Machine/Bus.lean ====
section
/-! DEFINITION. What crosses the I2C bus (R45, R181), the controller's steps (R180), whose turn it is (R48, R49)
and the values drawn at reset (R290): the types the free values of Config range over. -/

namespace Sys2Proof

/-- The receiver's answer to one byte the controller sends (R45, R181). -/
inductive TxOutcome where
  | ack | nack | err | arb
deriving DecidableEq, Repr, Inhabited

/-- The bus's answer to one byte the controller receives (R181). -/
inductive RxAnswer where
  | ok (b : Byte) | err | arb
deriving DecidableEq, Repr, Inhabited

/-- How a received byte is recorded in the history (R45). -/
inductive RxOutcome where
  | ok | err | arb
deriving DecidableEq, Repr, Inhabited

/-- The outcome of a STOP the controller generates (R45, R181). -/
inductive StopOutcome where
  | ok | err | arb
deriving DecidableEq, Repr, Inhabited

/-- One event of the bus history (R45). -/
inductive BusEvent where
  | start
  | tx (byte : Byte) (resp : TxOutcome)
  | rx (byte : Option Byte) (masterAck : Bool) (res : RxOutcome)
  | stop (res : StopOutcome)
deriving DecidableEq, Repr, Inhabited

/-- The controller's six steps (R180). -/
inductive ControllerStep where
  | completeWrByte | completeRdByte | completeStop | release | hang | settle
deriving DecidableEq, Repr, Inhabited

/-- Which agent moves next: the host, or the controller with one of its steps (R48, R49). -/
inductive Turn where
  | host
  | controller (k : ControllerStep)
deriving DecidableEq, Repr, Inhabited

/-- The values the spec draws at reset: the five STATUS flags and `prescale` (R50, R290). -/
structure ResetDraws where
  busy : Bool
  done : Bool
  error : Bool
  arbLost : Bool
  ack : Bool
  prescale : Word
deriving DecidableEq, Repr, Inhabited

end Sys2Proof
end

