-- ==== Sys2Proof/Config.lean ====
section
/-! DEFINITION. What the implementation fixes (R6) and the values the spec leaves free: the draws `any(T)` of R10,
the bus oracle of R181, the interleaving of R49 and the reset draws of R290. A free value is an opaque constant:
nothing can evaluate it, so a claim about it holds whatever it is. -/

namespace Sys2Proof.Config

/-! Register offsets (D2), CTRL bit positions (D3), STATUS bit positions (D4): configuration constants (log 17). -/

/-- `OFF_CTRL` (R6, R70). -/
def offCtrl : Nat := 0x00
/-- `OFF_STATUS` (R6, R70). -/
def offStatus : Nat := 0x04
/-- `OFF_DATA` (R6, R70). -/
def offData : Nat := 0x08
/-- `OFF_PRESCALE` (R6, R70). -/
def offPrescale : Nat := 0x0C
/-- `WINDOW_SIZE` in bytes (R6, R70). -/
def windowSize : Nat := 16
/-- One past the last host address: host addresses are 32 bits wide (R6, R71). -/
def addressSpace : Nat := 2 ^ 32

/-- CTRL.START (R102). -/
def ctrlStartBit : Nat := 0
/-- CTRL.STOP (R102). -/
def ctrlStopBit : Nat := 1
/-- CTRL.READ (R102). -/
def ctrlReadBit : Nat := 2
/-- CTRL.ACK_EN (R102). -/
def ctrlAckEnBit : Nat := 3

/-- STATUS.BUSY (R103). -/
def statusBusyBit : Nat := 0
/-- STATUS.DONE (R103). -/
def statusDoneBit : Nat := 1
/-- STATUS.ERROR (R103). -/
def statusErrorBit : Nat := 2
/-- STATUS.ARB_LOST (R103). -/
def statusArbLostBit : Nat := 3
/-- STATUS.ACK (R103). -/
def statusAckBit : Nat := 4

/-- The first and the last address `scan` probes (R6, R224). -/
def scanFirst : DeviceAddr := 0x08#7
@[inherit_doc scanFirst] def scanLast : DeviceAddr := 0x77#7

/-- `HW_FAULT_HANG`, at the spec's default (R6, R187; log 16). -/
def hwFaultHang : Bool := true

/-- `I2C_BASE` divided by 4: OPEN (R6, D1). The whole window lies in the 32-bit host address space (log 6). -/
opaque i2cBaseIndex : Fin 1073741821

/-- `I2C_BASE`: the host address of the window, a multiple of 4 (R70). -/
def i2cBase : Nat := 4 * i2cBaseIndex.val

/-- `sclOf`: the SCL frequency a divisor gives. OPEN, and no rule depends on it (R40, D6; log 18). -/
opaque sclOf : Word → Nat
/-- `SYSCLK`. OPEN, and no rule depends on it (R6, D6; log 18). -/
opaque sysclk : Nat
/-- `INIT_SETTLE`. OPEN: the model has no time, so no rule depends on it (R6, D23; log 18). -/
opaque initSettle : Nat

/-! The draws `any(T)` of R10, one function per type, applied to the counter `State.draws` (log 2). -/

/-- `any(UInt32)`: a CTRL or PRESCALE read, a DATA read in flight (R152, R157, R159). -/
opaque anyWord : Nat → Word
/-- `any(UInt27)`: the reserved bits of a STATUS read (R103, R153). -/
opaque anyUInt27 : Nat → BitVec 27
/-- `any(UInt24)`: the reserved bits of a DATA read (R104, R157). -/
opaque anyUInt24 : Nat → BitVec 24
/-- `any(UInt8)`: the byte a failed read leaves in DATA (R184), and a RAM byte nothing has written (log 11). -/
opaque anyByte : Nat → Byte
/-- `any(Bool)`: the ACK flag after a read (R184). -/
opaque anyBool : Nat → Bool
/-- Where the host puts the variable whose address `write_byte` passes (R222; log 14). -/
opaque anyAddress : Nat → Word

/-! The bus oracle of R181. Its fresh choice `c` is the counter `State.draws` (log 3). -/

/-- `oracle.tx` (R181). -/
opaque busTx : List BusEvent → Byte → Nat → TxOutcome
/-- `oracle.rx` (R181). -/
opaque busRx : List BusEvent → Bool → Nat → RxAnswer
/-- `oracle.stop` (R181). -/
opaque busStop : List BusEvent → Nat → StopOutcome

/-- Which agent moves after the n-th choice: the arbitrary interleaving of R49 and R269 (log 4). -/
opaque schedule : Nat → Turn

/-- The values drawn at reset (R50, R290; log 5). -/
opaque resetDraws : ResetDraws

end Sys2Proof.Config
end

