-- ==== Sys2Proof/Syntax.lean ====
section
/-! DEFINITION. The instructions: one constructor per row of opcode_table.json, that is, one per decoded form of a
host word access (R115). A field the spec ignores is kept as an operand, so that no bit of an encoding is dropped. -/

namespace Sys2Proof

/-- A decoded host access. The order is the opcode table's. -/
inductive Instr where
  /-- CTRL.NOP: no command bit set (R144). -/
  | ctrlNop (ackEn : Bool)
  /-- CTRL.WRBYTE: START (R145). -/
  | ctrlWrbyte (ackEn : Bool)
  /-- CTRL.STOP: STOP (R148). -/
  | ctrlStop (ackEn : Bool)
  /-- CTRL.RDBYTE_ACK: READ and ACK_EN (R146). -/
  | ctrlRdbyteAck (start : Bool)
  /-- CTRL.RDBYTE_NACK: READ without ACK_EN (R147). -/
  | ctrlRdbyteNack (start : Bool)
  /-- CTRL.RSV_STOP_START: STOP with START (R149). -/
  | ctrlRsvStopStart (read ackEn : Bool)
  /-- CTRL.RSV_STOP_READ: STOP with READ, without START (R150). -/
  | ctrlRsvStopRead (ackEn : Bool)
  /-- CTRL.RSV_BITS: some of bits 31:4 set (R151). -/
  | ctrlRsvBits (v : Word)
  /-- CTRL.READ (R152). -/
  | ctrlRead
  /-- STATUS.READ (R153). -/
  | statusRead
  /-- STATUS.WRITE (R154). -/
  | statusWrite (v : Word)
  /-- DATA.WRITE: bits 31:8 are 0 (R155). -/
  | dataWrite (b : Byte)
  /-- DATA.WRITE_RSV: some of bits 31:8 set (R156). -/
  | dataWriteRsv (v : Word)
  /-- DATA.READ (R157). -/
  | dataRead
  /-- PRESCALE.WRITE (R158). -/
  | prescaleWrite (v : Word)
  /-- PRESCALE.READ (R159). -/
  | prescaleRead
deriving DecidableEq, Repr, Inhabited

/-- The row's mnemonic in opcode_table.json. -/
def Instr.mnemonic : Instr → String
  | .ctrlNop _ => "CTRL.NOP"
  | .ctrlWrbyte _ => "CTRL.WRBYTE"
  | .ctrlStop _ => "CTRL.STOP"
  | .ctrlRdbyteAck _ => "CTRL.RDBYTE_ACK"
  | .ctrlRdbyteNack _ => "CTRL.RDBYTE_NACK"
  | .ctrlRsvStopStart _ _ => "CTRL.RSV_STOP_START"
  | .ctrlRsvStopRead _ => "CTRL.RSV_STOP_READ"
  | .ctrlRsvBits _ => "CTRL.RSV_BITS"
  | .ctrlRead => "CTRL.READ"
  | .statusRead => "STATUS.READ"
  | .statusWrite _ => "STATUS.WRITE"
  | .dataWrite _ => "DATA.WRITE"
  | .dataWriteRsv _ => "DATA.WRITE_RSV"
  | .dataRead => "DATA.READ"
  | .prescaleWrite _ => "PRESCALE.WRITE"
  | .prescaleRead => "PRESCALE.READ"

end Sys2Proof
end

