-- ==== Sys2Proof/WellFormed.lean ====
section
/-! DEFINITION. When an instruction term stands for an encoding: the two catch-all rows hold only words with a
reserved bit set (R109, opcode_table.json). -/

namespace Sys2Proof

/-- The term is what some descriptor decodes to: bits 31:4 of a CTRL word (R102) and bits 31:8 of a DATA word (R104)
are the reserved ones. -/
def Instr.wf : Instr → Bool
  | .ctrlRsvBits v => v.extractLsb' 4 28 != 0#28
  | .dataWriteRsv v => v.extractLsb' 8 24 != 0#24
  | .ctrlNop _ => true
  | .ctrlWrbyte _ => true
  | .ctrlStop _ => true
  | .ctrlRdbyteAck _ => true
  | .ctrlRdbyteNack _ => true
  | .ctrlRsvStopStart _ _ => true
  | .ctrlRsvStopRead _ => true
  | .ctrlRead => true
  | .statusRead => true
  | .statusWrite _ => true
  | .dataWrite _ => true
  | .dataRead => true
  | .prescaleWrite _ => true
  | .prescaleRead => true

end Sys2Proof
end

