-- ==== Sys2Proof/Decode.lean ====
section
/-! DEFINITION. The 40-bit access descriptor (R100), the decoder (R101, R108, R141), the encoder, and the opcode
table as data with its lookup by mask and priority (R115). -/

namespace Sys2Proof

/-! The fields of a descriptor and of a CTRL word. -/

/-- `W`, bit 39: 1 for a write (R100). -/
def isWrite (d : Descriptor) : Bool := d.getLsbD 39

/-- `OFF`, bits 38:32: the byte offset in the window (R100). -/
def offsetOf (d : Descriptor) : Nat := (d.extractLsb' 32 7).toNat

/-- `WDATA`, bits 31:0 (R100). -/
def wdataOf (d : Descriptor) : Word := d.extractLsb' 0 32

/-- The descriptor `{W, OFF, WDATA}` (R100). -/
def descriptor (w : Bool) (off : Nat) (v : Word) : Descriptor :=
  BitVec.ofBool w ++ (BitVec.ofNat 7 off ++ v)

/-- `SW <REG>, v` (R112). -/
def storeDescriptor (off : Nat) (v : Word) : Descriptor := descriptor true off v

/-- `LW <var>, <REG>`; WDATA is 0 for a read (R100, R112). -/
def loadDescriptor (off : Nat) : Descriptor := descriptor false off 0#32

/-- A word with one bit, at position `pos`, that holds `b`. -/
def flagAt (b : Bool) (pos : Nat) : Word := (BitVec.ofBool b).setWidth 32 <<< pos

/-- A CTRL word as the OR of its flag masks (R102, R107). -/
def ctrlWord (start stop read ackEn : Bool) : Word :=
  flagAt start Config.ctrlStartBit ||| flagAt stop Config.ctrlStopBit |||
    flagAt read Config.ctrlReadBit ||| flagAt ackEn Config.ctrlAckEnBit

/-- `v[31:4]` of a CTRL word: the reserved bits (R102). -/
def ctrlReserved (v : Word) : BitVec 28 := v.extractLsb' 4 28

/-- `v[31:8]` of a DATA word: the reserved bits (R104). -/
def dataReserved (v : Word) : BitVec 24 := v.extractLsb' 8 24

/-! The decoder. -/

/-- Why a 40-bit number is no descriptor. -/
inductive DecodeError where
  /-- OFF is none of the four register offsets (R100). -/
  | noSuchRegister
deriving DecidableEq, Repr

/-- CTRL write dispatch, in the order of R141. -/
def decodeCtrlWrite (v : Word) : Instr :=
  let start := v.getLsbD Config.ctrlStartBit
  let stop := v.getLsbD Config.ctrlStopBit
  let read := v.getLsbD Config.ctrlReadBit
  let ackEn := v.getLsbD Config.ctrlAckEnBit
  if ctrlReserved v != 0#28 then .ctrlRsvBits v
  else if stop && start then .ctrlRsvStopStart read ackEn
  else if stop && read then .ctrlRsvStopRead ackEn
  else if read && ackEn then .ctrlRdbyteAck start
  else if read then .ctrlRdbyteNack start
  else if stop then .ctrlStop ackEn
  else if start then .ctrlWrbyte ackEn
  else .ctrlNop ackEn

/-- A DATA write: a word with a reserved bit set is not truncated (R155, R156). -/
def decodeDataWrite (v : Word) : Instr :=
  if dataReserved v != 0#24 then .dataWriteRsv v else .dataWrite (v.extractLsb' 0 8)

/-- The instruction a descriptor stands for (R101). WDATA of a read is not looked at, as in the table's masks (log 8). -/
def decode (d : Descriptor) : Except DecodeError Instr :=
  if offsetOf d = Config.offCtrl then
    .ok (if isWrite d then decodeCtrlWrite (wdataOf d) else .ctrlRead)
  else if offsetOf d = Config.offStatus then
    .ok (if isWrite d then .statusWrite (wdataOf d) else .statusRead)
  else if offsetOf d = Config.offData then
    .ok (if isWrite d then decodeDataWrite (wdataOf d) else .dataRead)
  else if offsetOf d = Config.offPrescale then
    .ok (if isWrite d then .prescaleWrite (wdataOf d) else .prescaleRead)
  else .error .noSuchRegister

/-! The encoder. -/

/-- The descriptor of an instruction, from the encodings of R108 and R144 to R159. -/
def encode : Instr → Descriptor
  | .ctrlNop ackEn => storeDescriptor Config.offCtrl (ctrlWord false false false ackEn)
  | .ctrlWrbyte ackEn => storeDescriptor Config.offCtrl (ctrlWord true false false ackEn)
  | .ctrlStop ackEn => storeDescriptor Config.offCtrl (ctrlWord false true false ackEn)
  | .ctrlRdbyteAck start => storeDescriptor Config.offCtrl (ctrlWord start false true true)
  | .ctrlRdbyteNack start => storeDescriptor Config.offCtrl (ctrlWord start false true false)
  | .ctrlRsvStopStart read ackEn => storeDescriptor Config.offCtrl (ctrlWord true true read ackEn)
  | .ctrlRsvStopRead ackEn => storeDescriptor Config.offCtrl (ctrlWord false true true ackEn)
  | .ctrlRsvBits v => storeDescriptor Config.offCtrl v
  | .ctrlRead => loadDescriptor Config.offCtrl
  | .statusRead => loadDescriptor Config.offStatus
  | .statusWrite v => storeDescriptor Config.offStatus v
  | .dataWrite b => storeDescriptor Config.offData (b.setWidth 32)
  | .dataWriteRsv v => storeDescriptor Config.offData v
  | .dataRead => loadDescriptor Config.offData
  | .prescaleWrite v => storeDescriptor Config.offPrescale v
  | .prescaleRead => loadDescriptor Config.offPrescale

/-- The descriptor the number `w` spells, bit 0 its least significant bit (opcode_table.json). -/
def tableDescriptor (nbits w : Nat) : Descriptor := BitVec.ofNat 40 (w % 2 ^ nbits)

/-- What the decoder reads from the table's number `w` of `nbits` bits. -/
def decodeTableWord (nbits w : Nat) : Option Instr :=
  match decode (tableDescriptor nbits w) with
  | .ok i => some i
  | .error _ => none

/-! The opcode table as data (opcode_table.json, R115). -/

/-- One row: a descriptor `d` matches it when `d` under the mask is the pattern. -/
structure TableRow where
  mnemonic : String
  pattern : Descriptor
  mask : Descriptor
  priority : Nat
deriving DecidableEq, Repr

def TableRow.accepts (r : TableRow) (d : Descriptor) : Bool := d &&& r.mask == r.pattern

/-- The rows of opcode_table.json, in its order. -/
def opcodeTable : List TableRow :=
  [⟨"CTRL.NOP", 0x8000000000#40, 0xFFFFFFFFF7#40, 1⟩,
   ⟨"CTRL.WRBYTE", 0x8000000001#40, 0xFFFFFFFFF7#40, 1⟩,
   ⟨"CTRL.STOP", 0x8000000002#40, 0xFFFFFFFFF7#40, 1⟩,
   ⟨"CTRL.RDBYTE_ACK", 0x800000000C#40, 0xFFFFFFFFFE#40, 1⟩,
   ⟨"CTRL.RDBYTE_NACK", 0x8000000004#40, 0xFFFFFFFFFE#40, 1⟩,
   ⟨"CTRL.RSV_STOP_START", 0x8000000003#40, 0xFFFFFFFFF3#40, 1⟩,
   ⟨"CTRL.RSV_STOP_READ", 0x8000000006#40, 0xFFFFFFFFF7#40, 1⟩,
   ⟨"CTRL.RSV_BITS", 0x8000000000#40, 0xFF00000000#40, 9⟩,
   ⟨"CTRL.READ", 0x0000000000#40, 0xFF00000000#40, 1⟩,
   ⟨"STATUS.READ", 0x0400000000#40, 0xFF00000000#40, 1⟩,
   ⟨"STATUS.WRITE", 0x8400000000#40, 0xFF00000000#40, 1⟩,
   ⟨"DATA.WRITE", 0x8800000000#40, 0xFFFFFFFF00#40, 1⟩,
   ⟨"DATA.WRITE_RSV", 0x8800000000#40, 0xFF00000000#40, 9⟩,
   ⟨"DATA.READ", 0x0800000000#40, 0xFF00000000#40, 1⟩,
   ⟨"PRESCALE.WRITE", 0x8C00000000#40, 0xFF00000000#40, 1⟩,
   ⟨"PRESCALE.READ", 0x0C00000000#40, 0xFF00000000#40, 1⟩]

/-- The rows in ascending priority: the catch-alls of priority 9 come last (R101, R115). -/
def rowsByPriority : List TableRow :=
  opcodeTable.filter (·.priority == 1) ++ opcodeTable.filter (·.priority == 9)

/-- The mnemonic of the first row, in ascending priority, that a descriptor matches (R101). -/
def tableMnemonic (d : Descriptor) : Option String :=
  (rowsByPriority.find? (·.accepts d)).map (·.mnemonic)

end Sys2Proof
end

