-- ==== Sys2Proof/Machine/State.lean ====
section
/-! DEFINITION. The state of the machine as plain data: the block's record (R30), the host that runs the driver
(R48, R210), and the model's own counters for what the spec leaves open. Reset (R50, R290). -/

namespace Sys2Proof.Machine

/-- The command being executed (R30, R42). -/
inductive Cmd where
  | wrByte (startCond : Bool)
  | rdByte (ackEn : Bool)
  | stop
deriving DecidableEq, Repr, Inhabited

/-- The model fault reasons, a closed set (R267). Each is recorded in `State.faults` by the shared operation
`raiseFault`; recording one and stopping is safe. -/
inductive FaultReason where
  /-- Raised by admission: a window access that is not 4 bytes or not aligned (R72). Safe. -/
  | badWidth
  /-- Raised by CTRL.RSV_BITS and DATA.WRITE_RSV (R151, R156). Safe. -/
  | reservedBits
  /-- Raised by CTRL.RSV_STOP_START and CTRL.RSV_STOP_READ (R149, R150). Safe. -/
  | reservedCommand
  /-- Raised by STATUS.WRITE (R154). Safe. -/
  | writeReadOnly
  /-- Raised by a command while one is in flight (R142). Safe. -/
  | cmdInFlight
  /-- Raised by a command with PRESCALE never written or 0 (R142). Safe. -/
  | notConfigured
  /-- Raised by a command before the settle step (R142). Safe. -/
  | notSettled
  /-- Raised by CTRL.WRBYTE and DATA.READ with nothing in DATA (R145, R157). Safe. -/
  | dataUnwritten
  /-- Raised by CTRL.WRBYTE when the bus is busy and not owned (R145). Safe. -/
  | startBusBusy
  /-- Raised by a read command with no open transaction (R146, R147). Safe. -/
  | readNotOwner
  /-- Raised by DATA.WRITE while a command is in flight (R155). Safe. -/
  | dataInFlight
  /-- Raised by PRESCALE.WRITE while a command is in flight or the bus is owned (R158). Safe. -/
  | prescaleBusy
deriving DecidableEq, Repr, Inhabited

/-- Why the machine stops. -/
inductive Fault where
  /-- Raised by `step` when `faults` is not empty: the faulted state is quiescent, no agent has a step (R267). Safe. -/
  | quiescent (r : FaultReason)
  /-- Raised by `step` when no agent has an enabled step, and so none ever will: the spec's outcome "stuck" (R11). Safe. -/
  | stuck
  /-- Raised by a host RAM access past the 32-bit host address space (R71; log 13). Safe. -/
  | outsideAddressSpace
deriving DecidableEq, Repr, Inhabited

/-- Why a step has no meaning. -/
inductive Refusal where
  /-- Raised by an arm of `exec` that has no meaning. Safe. -/
  | notModelled (mnemonic : String)
  /-- Raised by the host's turn on a 40-bit number that spells no access: OFF is no register (R100; log 8). Safe. -/
  | noDescriptor (d : Descriptor)
deriving DecidableEq, Repr

/-! The host. -/

/-- The sizes of a host memory access, in bytes 1, 2 and 4 (R72, R109). -/
inductive AccessSize where
  | byte | half | word
deriving DecidableEq, Repr, Inhabited

/-- `MemRead(addr, n)` or `MemWrite(addr, n, wdata)` (R10). Addresses are exact integers (R8). -/
structure HostAccess where
  write : Bool
  addr : Nat
  size : AccessSize
  wdata : Word
deriving DecidableEq, Repr, Inhabited

/-- The driver's public operations with their operands (R114, R211). `len` and `maxFound` are `Int32`. -/
inductive Call where
  | init (prescale : Word)
  | write (addr : DeviceAddr) (data len : Word)
  | read (addr : DeviceAddr) (buffer len : Word)
  | writeByte (addr : DeviceAddr) (byte : Byte)
  | readByte (addr : DeviceAddr) (p : Word)
  | scan (found maxFound : Word)
deriving DecidableEq, Repr, Inhabited

/-- One thing the host program does (R112, R113, R114). -/
inductive HostOp where
  /-- `SW <REG>, v` or `LW <var>, <REG>`, spelled by its descriptor (R100, R112). -/
  | register (d : Descriptor)
  /-- `MemRead` or `MemWrite` at a host address (R10). -/
  | memory (a : HostAccess)
  /-- `DELAY_SETTLE` (R113). -/
  | delaySettle
  /-- A call of a public operation (R114). -/
  | call (c : Call)
deriving DecidableEq, Repr, Inhabited

/-- The driver's result codes (R261). No operation returns `busy` (R266). -/
inductive ResultCode where
  | ok | error | arbLost | nack | busy
deriving DecidableEq, Repr, Inhabited

/-- What an operation returned: a result code, or the count of `scan` (R211). -/
inductive Returned where
  | status (r : ResultCode)
  | count (n : Nat)
deriving DecidableEq, Repr, Inhabited

/-- The running operation with its operands; `write_byte` runs as `write`, `read_byte` as `read` (R219 to R224). -/
inductive Job where
  | init (prescale : Word)
  | write (addr : DeviceAddr) (data len : Word)
  | read (addr : DeviceAddr) (buffer len : Word)
  | scan (found maxFound : Word)
deriving DecidableEq, Repr, Inhabited

/-- Where the driver stands: its next access, wait or return, named after the primitive it belongs to (R213 to R224). -/
inductive DriverPos where
  /-- `init`: SW PRESCALE (R219). -/
  | writePrescale
  /-- `init`: DELAY_SETTLE (R219). -/
  | delaySettle
  /-- The `wait_bus_free` before the address byte: LW STATUS (R213). -/
  | waitFree
  /-- `send_byte`: SW DATA (R216). -/
  | sendData
  /-- `send_byte`: CMD START (R216). -/
  | sendStart
  /-- `send_byte`: the LW STATUS of `wait_done` (R214, R216). -/
  | sendWait
  /-- `send_byte`: the LW STATUS of `classify` (R215, R216). -/
  | sendClassify
  /-- `write`: MemRead(data + i, 1) (R220). -/
  | fetchByte
  /-- `recv_byte`: CMD READ_ACK or CMD READ_NACK (R217). -/
  | recvCommand
  /-- `recv_byte`: the LW STATUS of `wait_done` (R214, R217). -/
  | recvWait
  /-- `recv_byte`: LW DATA (R217). -/
  | recvData
  /-- `read`: MemWrite(buffer + i, 1, b) (R221). -/
  | storeByte
  /-- `stop_sequence`: CMD STOP (R218). -/
  | stopCommand
  /-- `stop_sequence`: the LW STATUS of `wait_done` (R218). -/
  | stopWait
  /-- `stop_sequence`: the LW STATUS of `wait_bus_free` (R218). -/
  | stopFree
  /-- `scan`: MemWrite(found + count, 1, a) (R224). -/
  | recordFound
  /-- The `return` (R228). -/
  | ret
deriving DecidableEq, Repr, Inhabited

/-- The running operation: its position and its host variables. -/
structure Activation where
  job : Job
  pos : DriverPos
  /-- The byte to send, or the byte received: `b` of R216, R217, R220, R221. -/
  byte : Byte
  /-- The loop index `i` of R220 and R221. -/
  index : Nat
  /-- The candidate `a` of R224. -/
  candidate : DeviceAddr
  /-- `count` of R224. -/
  count : Nat
  /-- The held result code `r` of R220, R221, R224. -/
  result : ResultCode
deriving DecidableEq, Repr, Inhabited

/-- The machine's state. -/
structure State where
  /-- STATUS.BUSY (R34). -/
  busy : Bool
  /-- STATUS.DONE (R35). -/
  done : Bool
  /-- STATUS.ERROR (R36). -/
  error : Bool
  /-- STATUS.ARB_LOST (R37). -/
  arbLost : Bool
  /-- STATUS.ACK (R38). -/
  ack : Bool
  /-- DATA: the byte stored, or unwritten (R39). -/
  data : Option Byte
  /-- PRESCALE (R40). -/
  prescale : Word
  /-- PRESCALE was written since reset (R40). -/
  prescaleSet : Bool
  /-- The controller holds the bus (R41). -/
  own : Bool
  /-- The command being executed (R42). -/
  inflight : Option Cmd
  /-- The command in flight will never complete (R43). -/
  hung : Bool
  /-- The settle time after the last PRESCALE write has elapsed (R44). -/
  settled : Bool
  /-- The bus events so far, oldest first (R45). -/
  history : List BusEvent
  /-- The model faults recorded (R46, R267). -/
  faults : List FaultReason
  /-- The host variable the last LW or MemRead filled (R112). The model's own (log 9). -/
  loaded : Word
  /-- What the host does when no operation runs, in program order (R48, R78). The model's own (log 7). -/
  program : List HostOp
  /-- The public operation that runs (R210). The model's own (log 9). -/
  driver : Option Activation
  /-- What the operations returned, oldest first (R228). The model's own (log 9). -/
  results : List Returned
  /-- Host RAM, addresses strictly rising (R85). The model's own (log 11). -/
  memory : List Host.Cell
  /-- The descriptors of the window accesses made, oldest first. The model's own (log 9). -/
  accesses : List Descriptor
  /-- Who moves next (R49). The model's own (log 4). -/
  turn : Turn
  /-- How many choices were taken from `Config.schedule`. The model's own (log 4). -/
  ticks : Nat
  /-- How many free values were drawn. The model's own (log 2). -/
  draws : Nat
deriving DecidableEq, Repr

/-- Reset, for the values `d` drawn (R50, R290). -/
def State.resetWith (d : ResetDraws) : State where
  busy := d.busy
  done := d.done
  error := d.error
  arbLost := d.arbLost
  ack := d.ack
  data := none
  prescale := d.prescale
  prescaleSet := false
  own := false
  inflight := none
  hung := false
  settled := false
  history := []
  faults := []
  loaded := 0#32
  program := []
  driver := none
  results := []
  memory := []
  accesses := []
  turn := Config.schedule 0
  ticks := 1
  draws := 0

/-- The machine right after reset (R50, R290). -/
def State.reset : State := State.resetWith Config.resetDraws

end Sys2Proof.Machine
end

