-- ==== Sys2Proof/Machine/Flags.lean ====
section
/-! DEFINITION. The STATUS word, its masks, and the tests the driver makes on it (R103, R213, R214, R215). -/

namespace Sys2Proof.Machine

/-- `ST_BUSY` (R103). -/
def stBusy : Word := flagAt true Config.statusBusyBit
/-- `ST_DONE` (R103). -/
def stDone : Word := flagAt true Config.statusDoneBit
/-- `ST_ERROR` (R103). -/
def stError : Word := flagAt true Config.statusErrorBit
/-- `ST_ARB_LOST` (R103). -/
def stArbLost : Word := flagAt true Config.statusArbLostBit
/-- `ST_ACK` (R103). -/
def stAck : Word := flagAt true Config.statusAckBit

/-- The STATUS word `{reserved, ack, arbLost, error, done, busy}` (R103). -/
def statusWord (reserved : BitVec 27) (s : State) : Word :=
  reserved.setWidth 32 <<< 5 ||| flagAt s.ack Config.statusAckBit ||| flagAt s.arbLost Config.statusArbLostBit |||
    flagAt s.error Config.statusErrorBit ||| flagAt s.done Config.statusDoneBit ||| flagAt s.busy Config.statusBusyBit

/-- `(v & mask) != 0`. -/
def anySet (v mask : Word) : Bool := v &&& mask != 0#32

/-- `wait_bus_free` leaves its loop on this STATUS value (R213). -/
def sawFree (v : Word) : Bool := !anySet v stBusy

/-- `wait_done` leaves its loop on this STATUS value (R214). -/
def sawDone (v : Word) : Bool := v &&& stDone == stDone

/-- `classify`, on the STATUS word it read (R215). -/
def classify (v : Word) : ResultCode :=
  if anySet v stArbLost then .arbLost
  else if anySet v stError then .error
  else if !anySet v stAck then .nack
  else .ok

/-- The `Int32` value of a result code (R261). -/
def ResultCode.code : ResultCode → Word
  | .ok => 0#32
  | .error => BitVec.ofInt 32 (-1)
  | .arbLost => BitVec.ofInt 32 (-2)
  | .nack => BitVec.ofInt 32 (-3)
  | .busy => BitVec.ofInt 32 (-4)

/-- The `Int32` a public operation returns (R211, R261). -/
def Returned.code : Returned → Word
  | .status r => r.code
  | .count n => BitVec.ofNat 32 n

end Sys2Proof.Machine
end

