-- ==== Sys2Proof/Machine/Operands.lean ====
section
/-! DEFINITION. Operand forms: the address byte, the words and descriptors the driver writes, the DATA word it reads
(R104, R106, R107, R113). -/

namespace Sys2Proof.Machine

/-- `addrByte(addr, rw) = (zext_8(addr) << 1) | zext_8(rw)`; `rw` is 0 for write, 1 for read (R106). -/
def addrByte (addr : DeviceAddr) (rw : Bool) : Byte := addr.setWidth 8 <<< 1 ||| (BitVec.ofBool rw).setWidth 8

/-- The DATA word of a read: `{reserved, byte}` (R104, R157). -/
def dataWord (reserved : BitVec 24) (b : Byte) : Word := reserved ++ b

/-- `d[7:0]` of a DATA or RAM read (R217). -/
def lowByte (v : Word) : Byte := v.setWidth 8

/-- `CMD START` = `SW CTRL, 0x1` (R113). -/
def cmdStart : Descriptor := storeDescriptor Config.offCtrl (ctrlWord true false false false)

/-- `CMD STOP` = `SW CTRL, 0x2` (R113). -/
def cmdStop : Descriptor := storeDescriptor Config.offCtrl (ctrlWord false true false false)

/-- `CMD READ_ACK` = `SW CTRL, 0xC` and `CMD READ_NACK` = `SW CTRL, 0x4` (R113). -/
def cmdRead (ackEn : Bool) : Descriptor := storeDescriptor Config.offCtrl (ctrlWord false false true ackEn)

/-- `SW DATA, zext_32(b)` (R107). -/
def storeData (b : Byte) : Descriptor := storeDescriptor Config.offData (b.setWidth 32)

/-- `SW PRESCALE, v` (R107). -/
def storePrescale (v : Word) : Descriptor := storeDescriptor Config.offPrescale v

/-- `LW <var>, STATUS` (R112). -/
def loadStatus : Descriptor := loadDescriptor Config.offStatus

/-- `LW <var>, DATA` (R112). -/
def loadData : Descriptor := loadDescriptor Config.offData

end Sys2Proof.Machine
end

