-- ==== Sys2Proof/Machine/Ops.lean ====
section
/-! DEFINITION. The operations the meanings share: raising a fault (R267, R268), the command checks and the issue of a
command (R142, R143), `emit`, draws and loads (R10), admission of a host access (R72), and host RAM (R85). -/

namespace Sys2Proof.Machine

/-- A step of the machine, or of one of its agents. -/
abbrev Result := Host.Outcome State Fault Refusal

/-! Updates of the state. -/

/-- `emit(e)` (R10, R45). -/
def State.emit (s : State) (e : BusEvent) : State := { s with history := s.history ++ [e] }

/-- `issue(c)`: DONE, ERROR, ARB_LOST and ACK are cleared (R143). -/
def State.issue (s : State) (c : Cmd) : State :=
  { s with done := false, error := false, arbLost := false, ack := false, inflight := some c }

/-- The end of a completion: DONE is set and no command is in flight (R183, R184, R185). -/
def State.finish (s : State) : State := { s with done := true, inflight := none }

/-- The value an LW or a MemRead delivers to the host (R112). -/
def State.load (s : State) (v : Word) : State := { s with loaded := v }

/-- `n` free values were drawn (R10). -/
def State.drew (s : State) (n : Nat) : State := { s with draws := s.draws + n }

/-- The fault reason is recorded; nothing else changes (R267). -/
def State.recordFault (s : State) (r : FaultReason) : State := { s with faults := s.faults ++ [r] }

/-! Faults. -/

/-- `raise Fault(r)`: the access ends in the state that records the reason and has no other effect of the access
(R267). `step` answers the fault in every later step (log 1). -/
def raiseFault (r : FaultReason) (s : State) : Result := .next (s.recordFault r)

/-- The reason of the first check that fails, top to bottom (R268). -/
def firstFault : List (Bool × FaultReason) → Option FaultReason
  | [] => none
  | (failed, r) :: rest => if failed then some r else firstFault rest

/-- An access under its checks: the first that fails is raised, and otherwise `s'` follows (R267, R268). -/
def guarded (checks : List (Bool × FaultReason)) (s s' : State) : Result :=
  match firstFault checks with
  | some r => raiseFault r s
  | none => .next s'

/-- `checkCommand()` (R142). -/
def commandChecks (s : State) : List (Bool × FaultReason) :=
  [(s.inflight.isSome, .cmdInFlight),
   (!s.prescaleSet || s.prescale == 0#32, .notConfigured),
   (!s.settled, .notSettled)]

/-- The checks of CTRL.WRBYTE (R145). -/
def wrByteChecks (s : State) : List (Bool × FaultReason) :=
  commandChecks s ++ [(s.data.isNone, .dataUnwritten), (!s.own && s.busy, .startBusBusy)]

/-- The checks of both read commands (R146, R147). -/
def rdByteChecks (s : State) : List (Bool × FaultReason) :=
  commandChecks s ++ [(!s.own, .readNotOwner)]

/-- The checks of PRESCALE.WRITE (R158). -/
def prescaleChecks (s : State) : List (Bool × FaultReason) :=
  [(s.inflight.isSome || s.own, .prescaleBusy)]

/-- The START condition of CTRL.WRBYTE (R145). -/
def State.startCondition (s : State) : State := { s.emit .start with busy := true, own := true }

/-! Admission of a host access at an address (R72, R101). -/

/-- The bytes an access moves. -/
def AccessSize.bytes : AccessSize → Nat
  | .byte => 1
  | .half => 2
  | .word => 4

/-- What a host access is. -/
inductive Admission where
  /-- An admitted window access, with its descriptor (R100). -/
  | window (d : Descriptor)
  /-- A window access that is not admitted (R72). -/
  | badWidth
  /-- An access to host RAM (R85). -/
  | ram
deriving DecidableEq, Repr

/-- The check of R72 on an access to the window at `base`. -/
def admission (base : Nat) (a : HostAccess) : Admission :=
  if base ≤ a.addr ∧ a.addr < base + Config.windowSize then
    if a.size.bytes ≠ 4 then .badWidth
    else if (a.addr - base) % 4 ≠ 0 then .badWidth
    else .window (descriptor a.write (a.addr - base) (if a.write then a.wdata else 0#32))
  else if a.addr < base ∧ base < a.addr + a.size.bytes then .badWidth
  else .ram

/-! Host RAM (R85). -/

/-- The byte at an address, if one was written (log 11). -/
def Memory.read : List Host.Cell → Nat → Option Byte
  | [], _ => none
  | (k, b) :: m, a => if k = a then some b else Memory.read m a

/-- Writes one byte and keeps the addresses rising. -/
def Memory.write : List Host.Cell → Nat → Byte → List Host.Cell
  | [], a, b => [(a, b)]
  | (k, c) :: m, a, b =>
    if a < k then (a, b) :: (k, c) :: m
    else if a = k then (a, b) :: m
    else (k, c) :: Memory.write m a b

/-- The canonical form: addresses strictly rising. An unlisted address has no value, so that no entry can equal
what an unlisted address reads as (log 11). -/
def Memory.wf : List Host.Cell → Bool
  | [] => true
  | (k, _) :: m => m.all (fun c => decide (k < c.1)) && Memory.wf m

/-- One byte of host RAM; a byte nothing has written is a free value (log 11). -/
def ramByte (a : Nat) (s : State) : Byte × State :=
  match Memory.read s.memory a with
  | some b => (b, s)
  | none => (Config.anyByte s.draws, s.drew 1)

/-- `n` bytes of host RAM from `a` up, the byte at the lowest address in the low bits (log 12). -/
def ramLoad : Nat → Nat → State → Word × State
  | 0, _, s => (0#32, s)
  | n + 1, a, s =>
    let low := ramByte a s
    let high := ramLoad n (a + 1) low.2
    (high.1 <<< 8 ||| low.1.setWidth 32, high.2)

/-- Stores the low `n` bytes of `v` from `a` up, the low byte at the lowest address (log 12). -/
def ramStore : Nat → Nat → Word → List Host.Cell → List Host.Cell
  | 0, _, _, m => m
  | n + 1, a, v, m => ramStore n (a + 1) (v >>> 8) (Memory.write m a (lowByte v))

/-- A host access that lies outside the window (R10, R85; log 13). DESIGN CHOICE: a 2- or 4-byte one is performed at any
alignment, in one step (log 23). -/
def ramAccess (a : HostAccess) (s : State) : Result :=
  if Config.addressSpace < a.addr + a.size.bytes then .fault .outsideAddressSpace
  else if a.write then .next { s with memory := ramStore a.size.bytes a.addr a.wdata s.memory }
  else .next ((ramLoad a.size.bytes a.addr s).2.load (ramLoad a.size.bytes a.addr s).1)

end Sys2Proof.Machine
end

