-- ==== Sys2Proof/Machine/Controller.lean ====
section
/-! DEFINITION. The controller's six steps (R180 to R188). A completion takes the oracle's answer, and the draws of a
read, as arguments; `controllerStep` supplies them from Config (log 2, log 3). -/

namespace Sys2Proof.Machine

/-- A WrByte command is in flight (R183). -/
def Cmd.isWrByte : Cmd → Bool
  | .wrByte _ => true
  | .rdByte _ => false
  | .stop => false

/-- An RdByte command is in flight (R184). -/
def Cmd.isRdByte : Cmd → Bool
  | .wrByte _ => false
  | .rdByte _ => true
  | .stop => false

/-- A Stop command is in flight (R185). -/
def Cmd.isStop : Cmd → Bool
  | .wrByte _ => false
  | .rdByte _ => false
  | .stop => true

/-- When each step is enabled, for the parameter `HW_FAULT_HANG` (R180). No step is enabled once a fault is recorded. -/
def enabled (hwFaultHang : Bool) (k : ControllerStep) (s : State) : Bool :=
  s.faults.isEmpty &&
  match k with
  | .completeWrByte => s.inflight.any Cmd.isWrByte && !s.hung
  | .completeRdByte => s.inflight.any Cmd.isRdByte && !s.hung
  | .completeStop => s.inflight.any Cmd.isStop && !s.hung
  | .release => s.inflight.isNone && !s.own && s.busy
  | .hang => hwFaultHang && s.inflight.isSome && !s.hung
  | .settle => s.prescaleSet && !s.settled

/-- Complete WrByte, for the byte sent and the receiver's answer (R183). -/
def completeWrByte (b : Byte) (o : TxOutcome) (s : State) : State :=
  let t := s.emit (.tx b o)
  State.finish <|
    match o with
    | .ack => { t with ack := true }
    | .nack => t
    | .err => { t with error := true }
    | .arb => { t with arbLost := true, own := false }

/-- Complete RdByte, for the recorded ACK_EN `k`, the bus's answer, the byte a failed read leaves and the ACK flag
(R184). -/
def completeRdByte (k : Bool) (a : RxAnswer) (junk : Byte) (ackDraw : Bool) (s : State) : State :=
  State.finish <|
    match a with
    | .ok b => { s.emit (.rx (some b) k .ok) with data := some b, ack := ackDraw }
    | .err => { s.emit (.rx none k .err) with data := some junk, error := true, ack := ackDraw }
    | .arb => { s.emit (.rx none k .arb) with data := some junk, arbLost := true, own := false, ack := ackDraw }

/-- Complete Stop, for the bus's answer; without ownership there is no bus event and the answer is not used (R185). -/
def completeStop (o : StopOutcome) (s : State) : State :=
  State.finish <|
    if s.own then
      match o with
      | .ok => { s.emit (.stop .ok) with own := false }
      | .err => { s.emit (.stop .err) with error := true, own := false }
      | .arb => { s.emit (.stop .arb) with arbLost := true, own := false }
    else s

/-- Release: the bus becomes free (R186). -/
def releaseBus (s : State) : State := { s with busy := false }

/-- Hang: the command in flight will never complete (R187). -/
def hang (s : State) : State := { s with hung := true }

/-- Settle: the settle time has elapsed (R188). -/
def settle (s : State) : State := { s with settled := true }

/-- The byte a WrByte completion sends: the byte in DATA, which R145 guarantees; a draw in a state that holds none and
that no run reaches (R183; log 15). -/
def byteToSend (s : State) : Byte := s.data.getD (Config.anyByte s.draws)

/-- The ACK_EN bit recorded with the read command in flight (R42, R184). -/
def masterAck (s : State) : Bool := s.inflight == some (.rdByte true)

/-- The effect of an enabled step, with the oracle asked once and every draw fresh (R181, R182). -/
def controllerStep (k : ControllerStep) (s : State) : State :=
  match k with
  | .completeWrByte =>
    (completeWrByte (byteToSend s) (Config.busTx s.history (byteToSend s) s.draws) s).drew 1
  | .completeRdByte =>
    (completeRdByte (masterAck s) (Config.busRx s.history (masterAck s) s.draws) (Config.anyByte s.draws)
      (Config.anyBool s.draws) s).drew 1
  | .completeStop =>
    if s.own then (completeStop (Config.busStop s.history s.draws) s).drew 1 else completeStop .ok s
  | .release => releaseBus s
  | .hang => hang s
  | .settle => settle s

/-- The six steps (R180). -/
def controllerSteps : List ControllerStep :=
  [.completeWrByte, .completeRdByte, .completeStop, .release, .hang, .settle]

end Sys2Proof.Machine
end

