-- ==== Sys2Proof/Machine/Ctrl.lean ====
section
/-! DEFINITION. The meanings of the CTRL accesses (R144 to R152). -/

namespace Sys2Proof.Machine

/-- CTRL.NOP: no state changes, in any state (R144). -/
def execCtrlNop (_ackEn : Bool) (s : State) : Result := .next s

/-- CTRL.WRBYTE: send the byte in DATA, after a START condition when the controller does not own the bus (R145). -/
def execCtrlWrbyte (_ackEn : Bool) (s : State) : Result :=
  guarded (wrByteChecks s) s
    (if s.own then s.issue (.wrByte false) else s.startCondition.issue (.wrByte true))

/-- CTRL.RDBYTE_ACK: receive one byte and acknowledge it (R146). -/
def execCtrlRdbyteAck (_start : Bool) (s : State) : Result :=
  guarded (rdByteChecks s) s (s.issue (.rdByte true))

/-- CTRL.RDBYTE_NACK: receive one byte and do not acknowledge it (R147). -/
def execCtrlRdbyteNack (_start : Bool) (s : State) : Result :=
  guarded (rdByteChecks s) s (s.issue (.rdByte false))

/-- CTRL.STOP: end the transaction (R148). -/
def execCtrlStop (_ackEn : Bool) (s : State) : Result := guarded (commandChecks s) s (s.issue .stop)

/-- CTRL.RSV_STOP_START (R149). -/
def execCtrlRsvStopStart (_read _ackEn : Bool) (s : State) : Result := raiseFault .reservedCommand s

/-- CTRL.RSV_STOP_READ (R150). -/
def execCtrlRsvStopRead (_ackEn : Bool) (s : State) : Result := raiseFault .reservedCommand s

/-- CTRL.RSV_BITS (R151). -/
def execCtrlRsvBits (_v : Word) (s : State) : Result := raiseFault .reservedBits s

/-- CTRL.READ: a fresh draw; the block is unchanged (R152). -/
def execCtrlRead (s : State) : Result := .next ((s.load (Config.anyWord s.draws)).drew 1)

end Sys2Proof.Machine
end

