-- ==== Sys2Proof/Machine/Data.lean ====
section
/-! DEFINITION. The meanings of the DATA accesses (R155, R156, R157). -/

namespace Sys2Proof.Machine

/-- DATA.WRITE: set the next byte to send (R155). -/
def execDataWrite (b : Byte) (s : State) : Result :=
  guarded [(s.inflight.isSome, .dataInFlight)] s { s with data := some b }

/-- DATA.WRITE_RSV: the value is not truncated to a byte (R156). -/
def execDataWriteRsv (_v : Word) (s : State) : Result := raiseFault .reservedBits s

/-- DATA.READ: a draw while a command is in flight, else the byte under drawn bits 31:8 (R157). -/
def execDataRead (s : State) : Result :=
  if s.inflight.isSome then .next ((s.load (Config.anyWord s.draws)).drew 1)
  else match s.data with
    | none => raiseFault .dataUnwritten s
    | some b => .next ((s.load (dataWord (Config.anyUInt24 s.draws) b)).drew 1)

end Sys2Proof.Machine
end

