-- ==== Sys2Proof/Machine/Prescale.lean ====
section
/-! DEFINITION. The meanings of the PRESCALE accesses (R158, R159). -/

namespace Sys2Proof.Machine

/-- PRESCALE.WRITE: set the clock divider; the settle time starts anew (R158). -/
def execPrescaleWrite (v : Word) (s : State) : Result :=
  guarded (prescaleChecks s) s { s with prescale := v, prescaleSet := true, settled := false }

/-- PRESCALE.READ: a fresh draw, not the stored divisor (R159). -/
def execPrescaleRead (s : State) : Result := .next ((s.load (Config.anyWord s.draws)).drew 1)

/-- The SCL frequency of the divisor stored, through the OPEN parameter `sclOf` (R40, R105; log 18). -/
def sclFrequency (s : State) : Nat := Config.sclOf s.prescale

end Sys2Proof.Machine
end

