-- ==== Sys2Proof/Machine/Status.lean ====
section
/-! DEFINITION. The meanings of the STATUS accesses (R153, R154). -/

namespace Sys2Proof.Machine

/-- STATUS.READ: the flags in bits 4:0, a draw above them; it clears nothing (R153). -/
def execStatusRead (s : State) : Result :=
  .next ((s.load (statusWord (Config.anyUInt27 s.draws) s)).drew 1)

/-- STATUS.WRITE (R154). -/
def execStatusWrite (_v : Word) (s : State) : Result := raiseFault .writeReadOnly s

end Sys2Proof.Machine
end

