-- ==== Sys2Proof/Machine/Dispatch.lean ====
section
/-! DEFINITION. The meaning of each instruction: one arm per constructor of Instr. -/

namespace Sys2Proof.Machine

def exec (i : Instr) (s : State) : Host.Outcome State Fault Refusal :=
  match i with
  | .ctrlNop ackEn => Sys2Proof.Machine.execCtrlNop ackEn s
  | .ctrlWrbyte ackEn => Sys2Proof.Machine.execCtrlWrbyte ackEn s
  | .ctrlStop ackEn => Sys2Proof.Machine.execCtrlStop ackEn s
  | .ctrlRdbyteAck start => Sys2Proof.Machine.execCtrlRdbyteAck start s
  | .ctrlRdbyteNack start => Sys2Proof.Machine.execCtrlRdbyteNack start s
  | .ctrlRsvStopStart read ackEn => Sys2Proof.Machine.execCtrlRsvStopStart read ackEn s
  | .ctrlRsvStopRead ackEn => Sys2Proof.Machine.execCtrlRsvStopRead ackEn s
  | .ctrlRsvBits v => Sys2Proof.Machine.execCtrlRsvBits v s
  | .ctrlRead => Sys2Proof.Machine.execCtrlRead s
  | .statusRead => Sys2Proof.Machine.execStatusRead s
  | .statusWrite v => Sys2Proof.Machine.execStatusWrite v s
  | .dataWrite b => Sys2Proof.Machine.execDataWrite b s
  | .dataWriteRsv v => Sys2Proof.Machine.execDataWriteRsv v s
  | .dataRead => Sys2Proof.Machine.execDataRead s
  | .prescaleWrite v => Sys2Proof.Machine.execPrescaleWrite v s
  | .prescaleRead => Sys2Proof.Machine.execPrescaleRead s

end Sys2Proof.Machine
end

