-- ==== Sys2Proof/Machine/Driver.lean ====
section
/-! DEFINITION. The driver as a sequence of positions (R210 to R224): what it does at each position, where it goes
next, and what it returns. -/

namespace Sys2Proof.Machine

/-- What the host does next. -/
inductive HostAction where
  /-- It has no step. -/
  | none
  /-- A register access, spelled by its descriptor (R112). -/
  | register (d : Descriptor)
  /-- An access at a host address (R10). -/
  | memory (a : HostAccess)
  /-- `DELAY_SETTLE`: a hold until `settled = 1` (R113, R219). -/
  | delaySettle
  /-- It enters a public operation. -/
  | begin (c : Call)
  /-- The running operation returns. -/
  | ret (r : Returned)
deriving DecidableEq, Repr

/-- `len`, or `max_found`, as the number of bytes it bounds (R211, R220, R221, R224). -/
def lengthOf (len : Word) : Nat := len.toInt.toNat

/-- A null buffer or a length that is not positive: the guard of `write`, `read` and `scan` (R220, R221, R224). -/
def badArgument (buffer len : Word) : Bool := buffer == 0#32 || decide (len.toInt ≤ 0)

/-- An operation past its guard, at `pos`. -/
def Activation.start (job : Job) (pos : DriverPos) : Activation where
  job := job
  pos := pos
  byte := 0#8
  index := 0
  candidate := Config.scanFirst
  count := 0
  result := .ok

/-- `&byte` for the drawn address `w`: a non-null host RAM address. An address that is null or in the window stands for
the lowest one that is neither (R222; log 14). -/
def byteAddress (w : Word) : Word :=
  if w ≠ 0#32 ∧ (w.toNat < Config.i2cBase ∨ Config.i2cBase + Config.windowSize ≤ w.toNat) then w
  else if Config.i2cBase = 0 then 16#32
  else 1#32

/-- `write`, past its guard or not (R220). -/
def enterWrite (addr : DeviceAddr) (data len : Word) : Returned ⊕ Activation :=
  if badArgument data len then .inl (.status .error)
  else .inr (.start (.write addr data len) .waitFree)

/-- `read`, past its guard or not (R221). -/
def enterRead (addr : DeviceAddr) (buffer len : Word) : Returned ⊕ Activation :=
  if badArgument buffer len then .inl (.status .error)
  else .inr (.start (.read addr buffer len) .waitFree)

/-- What a call returns at once, or the operation it enters; `slot` is `&byte` (R219 to R224). -/
def Call.enter (slot : Word) : Call → Returned ⊕ Activation
  | .init prescale => .inr (.start (.init prescale) .writePrescale)
  | .write addr data len => enterWrite addr data len
  | .read addr buffer len => enterRead addr buffer len
  | .writeByte addr _ => enterWrite addr slot 1#32
  | .readByte addr p => enterRead addr p 1#32
  | .scan found maxFound =>
    if badArgument found maxFound then .inl (.count 0)
    else .inr (.start (.scan found maxFound) .waitFree)

/-- `write_byte`'s argument comes to lie at `&byte`; no other call touches host RAM (R222). -/
def Call.placeArgument (slot : Word) (c : Call) (s : State) : State :=
  match c with
  | .writeByte _ byte => { s with memory := Memory.write s.memory slot.toNat byte }.drew 1
  | .init _ => s
  | .write _ _ _ => s
  | .read _ _ _ => s
  | .readByte _ _ => s
  | .scan _ _ => s

/-- The address byte of the operation (R212, R220, R221, R224). -/
def Activation.addressByte (a : Activation) : Byte :=
  match a.job with
  | .init _ => 0#8
  | .write addr _ _ => addrByte addr false
  | .read addr _ _ => addrByte addr true
  | .scan _ _ => addrByte a.candidate false

/-- The buffer of the operation in host RAM (R220, R221, R224). -/
def Job.buffer : Job → Nat
  | .init _ => 0
  | .write _ data _ => data.toNat
  | .read _ buffer _ => buffer.toNat
  | .scan found _ => found.toNat

/-- `len` or `max_found` of the operation. -/
def Job.length : Job → Nat
  | .init _ => 0
  | .write _ _ len => lengthOf len
  | .read _ _ len => lengthOf len
  | .scan _ maxFound => lengthOf maxFound

/-- What the operation returns (R219, R220, R221, R224). -/
def Activation.returned (a : Activation) : Returned :=
  match a.job with
  | .init _ => .status .ok
  | .write _ _ _ => .status a.result
  | .read _ _ _ => .status a.result
  | .scan _ _ => .count a.count

/-- A 1-byte `MemRead` (R85). -/
def readByteAt (addr : Nat) : HostAccess := ⟨false, addr, .byte, 0#32⟩

/-- A 1-byte `MemWrite` (R85). -/
def writeByteAt (addr : Nat) (b : Byte) : HostAccess := ⟨true, addr, .byte, b.setWidth 32⟩

/-- What the driver does at its position. -/
def Activation.action (a : Activation) : HostAction :=
  match a.pos with
  | .writePrescale => .register (storePrescale (match a.job with | .init p => p | _ => 0#32))
  | .delaySettle => .delaySettle
  | .waitFree => .register loadStatus
  | .sendData => .register (storeData a.byte)
  | .sendStart => .register cmdStart
  | .sendWait => .register loadStatus
  | .sendClassify => .register loadStatus
  | .fetchByte => .memory (readByteAt (a.job.buffer + a.index))
  | .recvCommand => .register (cmdRead (a.index + 1 != a.job.length))
  | .recvWait => .register loadStatus
  | .recvData => .register loadData
  | .storeByte => .memory (writeByteAt (a.job.buffer + a.index) a.byte)
  | .stopCommand => .register cmdStop
  | .stopWait => .register loadStatus
  | .stopFree => .register loadStatus
  | .recordFound => .memory (writeByteAt (a.job.buffer + a.count) (a.candidate.setWidth 8))
  | .ret => .ret a.returned

def Activation.goto (a : Activation) (pos : DriverPos) : Activation := { a with pos := pos }

/-- `send_byte(b)` (R216). -/
def Activation.send (a : Activation) (b : Byte) : Activation := { a with byte := b, pos := .sendData }

/-- `b <- MemRead(data + i, 1)`, `send_byte(b)`, `i <- i + 1` of R220, for the byte read (log 20). -/
def Activation.sendPayload (a : Activation) (b : Byte) : Activation := { a.send b with index := a.index + 1 }

/-- After `send_byte`: the loop of `write`, the first read of `read`, the STOP of `scan` (R220, R221, R224). -/
def Activation.afterSend (a : Activation) : Activation :=
  match a.job with
  | .init _ => a.goto .ret
  | .write _ _ _ => if a.result = .ok ∧ a.index < a.job.length then a.goto .fetchByte else a.goto .stopCommand
  | .read _ _ _ => if a.result = .ok then a.goto .recvCommand else a.goto .stopCommand
  | .scan _ _ => a.goto .stopCommand

/-- The next candidate of `scan`, or its return after the last one (R224). -/
def Activation.nextCandidate (a : Activation) : Activation :=
  if a.candidate = Config.scanLast then a.goto .ret
  else { a with candidate := a.candidate + 1#7, pos := .waitFree }

/-- After `stop_sequence` (R220, R221, R224). -/
def Activation.afterStop (a : Activation) : Activation :=
  match a.job with
  | .init _ => a.goto .ret
  | .write _ _ _ => a.goto .ret
  | .read _ _ _ => a.goto .ret
  | .scan _ _ => if a.result = .ok then a.goto .recordFound else a.nextCandidate

/-- Where the driver goes once its access has been performed, for the value `v` of the last LW or MemRead. -/
def Activation.next (a : Activation) (v : Word) : Activation :=
  match a.pos with
  | .writePrescale => a.goto .delaySettle
  | .delaySettle => a.goto .ret
  | .waitFree => if sawFree v then a.send a.addressByte else a
  | .sendData => a.goto .sendStart
  | .sendStart => a.goto .sendWait
  | .sendWait => if sawDone v then a.goto .sendClassify else a
  | .sendClassify => Activation.afterSend { a with result := classify v }
  | .fetchByte => a.sendPayload (lowByte v)
  | .recvCommand => a.goto .recvWait
  | .recvWait => if sawDone v then a.goto .recvData else a
  | .recvData => { a with byte := lowByte v, pos := .storeByte }
  | .storeByte =>
    if a.index + 1 < a.job.length then { a with index := a.index + 1, pos := .recvCommand }
    else { a with index := a.index + 1, pos := .stopCommand }
  | .stopCommand => a.goto .stopWait
  | .stopWait => if sawDone v then a.goto .stopFree else a
  | .stopFree => if sawFree v then a.afterStop else a
  | .recordFound =>
    if a.count + 1 = a.job.length then { a with count := a.count + 1, pos := .ret }
    else Activation.nextCandidate { a with count := a.count + 1 }
  | .ret => a

/-- What the host does next: the running operation's access, or else the next item of its program (R48). -/
def hostAction (s : State) : HostAction :=
  match s.driver with
  | some a => a.action
  | none =>
    match s.program with
    | [] => .none
    | .register d :: _ => .register d
    | .memory a :: _ => .memory a
    | .delaySettle :: _ => .delaySettle
    | .call c :: _ => .begin c

/-- The host goes on after an access it has performed. A faulted access has no further effect (R267; log 19). -/
def hostAdvance (s : State) : State :=
  if s.faults.isEmpty then
    match s.driver with
    | some a => { s with driver := some (a.next s.loaded) }
    | none => { s with program := s.program.tail }
  else s

/-- The host enters a public operation; a guarded return makes no register access (R219 to R224, R232). -/
def beginCall (c : Call) (s : State) : State :=
  let slot := byteAddress (Config.anyAddress s.draws)
  let t := c.placeArgument slot s
  match c.enter slot with
  | .inl r => { t with program := t.program.tail, results := t.results ++ [r] }
  | .inr a => { t with program := t.program.tail, driver := some a }

/-- The running operation ends (R228). -/
def returnCall (r : Returned) (s : State) : State := { s with driver := none, results := s.results ++ [r] }

/-- The host has a step: it has something to do, and does not wait in `DELAY_SETTLE` (R10, R219). -/
def hostEnabled (s : State) : Bool :=
  s.faults.isEmpty &&
  match hostAction s with
  | .none => false
  | .delaySettle => s.settled
  | .register _ => true
  | .memory _ => true
  | .begin _ => true
  | .ret _ => true

end Sys2Proof.Machine
end

