-- ==== Sys2Proof/Machine/Turns.lean ====
section
/-! DEFINITION. One turn of each agent (R48, R49): the host's access, the controller's step, the hold (R11), and the
free choice of who moves next. -/

namespace Sys2Proof.Machine

/-- Goes on with the next state of an outcome; a stop stays the stop it is. -/
def Result.map (f : State → State) : Result → Result
  | .next s => .next (f s)
  | .fault r => .fault r
  | .refused r => .refused r

/-- Some agent has an enabled step. -/
def anyEnabled (s : State) : Bool :=
  hostEnabled s || controllerSteps.any (fun k => enabled Config.hwFaultHang k s)

/-- The agent chosen has no enabled step: a hold while another agent has one, and stuck otherwise (R11). -/
def hold (s : State) : Result := if anyEnabled s then .next s else .fault .stuck

/-- A window access is recorded by its descriptor; the model's own (log 9). -/
def State.logAccess (s : State) (d : Descriptor) : State := { s with accesses := s.accesses ++ [d] }

/-- The access a descriptor spells: decoded, performed, and then the host goes on (R48, R101). -/
def registerAccess (d : Descriptor) (s : State) : Result :=
  match decode d with
  | .ok i => Result.map (fun t => hostAdvance (t.logAccess d)) (exec i s)
  | .error .noSuchRegister => .refused (.noDescriptor d)

/-- A host access at an address, to the window at `base` or to host RAM (R72, R85). -/
def memoryAccess (base : Nat) (a : HostAccess) (s : State) : Result :=
  match admission base a with
  | .window d => registerAccess d s
  | .badWidth => raiseFault .badWidth s
  | .ram => Result.map hostAdvance (ramAccess a s)

/-- The host's turn (R48). -/
def hostTurn (s : State) : Result :=
  match hostAction s with
  | .none => hold s
  | .register d => registerAccess d s
  | .memory a => memoryAccess Config.i2cBase a s
  | .delaySettle => if s.settled then .next (hostAdvance s) else hold s
  | .begin c => .next (beginCall c s)
  | .ret r => .next (returnCall r s)

/-- The controller's turn, with the step chosen (R180). -/
def controllerTurn (k : ControllerStep) (s : State) : Result :=
  if enabled Config.hwFaultHang k s then .next (controllerStep k s) else hold s

/-- One turn of the agent `u`. -/
def agentTurn (u : Turn) (s : State) : Result :=
  match u with
  | .host => hostTurn s
  | .controller k => controllerTurn k s

/-- Who moves next is chosen afresh, by a schedule (R49, R269; log 4). -/
def State.chooseBy (sched : Nat → Turn) (s : State) : State :=
  { s with turn := sched s.ticks, ticks := s.ticks + 1 }

/-- Who moves next is chosen by the free schedule (log 4). -/
def State.choose (s : State) : State := s.chooseBy Config.schedule

/-- One step under a schedule: one turn of one agent, and none once a fault is recorded (R5, R11, R49, R267). -/
def stepBy (sched : Nat → Turn) (s : State) : Result :=
  match s.faults with
  | r :: _ => .fault (.quiescent r)
  | [] => Result.map (State.chooseBy sched) (agentTurn s.turn s)

/-- The state with the instruction `d` as the host's next access, on the host's turn (log 7). -/
def State.placeAccess (s : State) (d : Descriptor) : State :=
  { s with program := .register d :: s.program, driver := none, turn := .host }

end Sys2Proof.Machine
end

