-- ==== Sys2Proof/Machine/Step.lean ====
section
/-! DEFINITION. One step of the machine, under the free schedule (R49), and where the next instruction is placed. -/

namespace Sys2Proof.Machine

/-- One step. -/
def step (s : State) : Host.Outcome State Fault Refusal := stepBy Config.schedule s

/-- `s` with the access the table's number `w` spells placed where the host's next step takes it from. -/
def State.withFetchWord (s : State) (nbits w : Nat) : State := s.placeAccess (tableDescriptor nbits w)

end Sys2Proof.Machine
end

