-- ==== Sys2Proof/Safety.lean ====
section
/-! DEFINITION. What counts as a safe state and a safe run: the relations the block's fields keep (R34, R41 to R44,
R142), and the premises and the inductive form of the driver's fault-freedom (R229 to R235). -/

namespace Sys2Proof.Machine

/-! The block. -/

/-- PRESCALE was written with a divisor that is not 0 and the settle time has elapsed (R142, R235). -/
def Configured (s : State) : Prop := s.prescaleSet = true ∧ s.prescale ≠ 0#32 ∧ s.settled = true

/-- No command is in flight and the controller does not hold the bus (R229, R235). -/
def Unengaged (s : State) : Prop := s.inflight = none ∧ s.own = false

/-- What every step keeps of the block's fields. -/
structure BlockInvariant (s : State) : Prop where
  /-- A held bus is busy (R34, R41). -/
  owned_busy : s.own = true → s.busy = true
  /-- PRESCALE cannot change while the bus is held (R158). -/
  owned_configured : s.own = true → Configured s
  /-- PRESCALE cannot change while a command is in flight (R158). -/
  inflight_configured : s.inflight.isSome = true → Configured s
  /-- While a command is in flight DONE, ERROR, ARB_LOST and ACK are 0 (R42, R143, R153). -/
  inflight_flags : s.inflight.isSome = true → s.done = false ∧ s.error = false ∧ s.arbLost = false ∧ s.ack = false
  /-- A byte being sent is in DATA, and the bus is held (R145, R183). -/
  sending_owned : s.inflight.any Cmd.isWrByte = true → s.own = true ∧ s.data.isSome = true
  /-- A byte is received on a held bus (R146). -/
  receiving_owned : s.inflight.any Cmd.isRdByte = true → s.own = true
  /-- Only a command in flight hangs (R187). -/
  hung_inflight : s.hung = true → s.inflight.isSome = true
  /-- The settle time follows a PRESCALE write (R188). -/
  settled_set : s.settled = true → s.prescaleSet = true
  /-- One access records at most one reason, and none follows it (R267, R268). -/
  one_fault : s.faults.length ≤ 1
  /-- Host RAM is in its canonical form. -/
  memory_wf : Memory.wf s.memory = true

/-! Frames. -/

/-- The host's side is untouched: its program, the running operation, its results, the access record, and every byte
of host RAM. -/
def SameHost (s t : State) : Prop :=
  t.program = s.program ∧ t.driver = s.driver ∧ t.results = s.results ∧ t.accesses = s.accesses ∧
    ∀ a, Memory.read t.memory a = Memory.read s.memory a

/-- DONE, ERROR, ARB_LOST and ACK are untouched. -/
def SameFlags (s t : State) : Prop := t.done = s.done ∧ t.error = s.error ∧ t.arbLost = s.arbLost ∧ t.ack = s.ack

/-- The row issues a command (30_encoding.md R108): WRBYTE, RDBYTE_ACK, RDBYTE_NACK or STOP. -/
def IsCommand (i : Instr) : Prop :=
  ∃ a, i = .ctrlWrbyte a ∨ i = .ctrlRdbyteAck a ∨ i = .ctrlRdbyteNack a ∨ i = .ctrlStop a

/-- The row is a register read. -/
def IsRead (i : Instr) : Prop := i = .ctrlRead ∨ i = .statusRead ∨ i = .dataRead ∨ i = .prescaleRead

/-! Runs, and the fairness of the controller's steps (R189). -/

/-- The steps R189 assumes fair: the completions, release and settle, but not hang. -/
def isFair : ControllerStep → Bool
  | .completeWrByte => true
  | .completeRdByte => true
  | .completeStop => true
  | .release => true
  | .settle => true
  | .hang => false

/-- An endless run under a schedule. A run that ends does so in a fault or stuck. -/
def IsRun (sched : Nat → Turn) (r : Nat → State) : Prop := ∀ n, stepBy sched (r n) = .next (r (n + 1))

/-- Weak fairness (R189): a fair step that stays enabled from some point on is taken at some later one. -/
def WeaklyFair (r : Nat → State) : Prop :=
  ∀ k : ControllerStep, isFair k = true → ∀ n, (∀ m, n ≤ m → enabled Config.hwFaultHang k (r m) = true) →
    ∃ m, n ≤ m ∧ (r m).turn = .controller k

/-! The driver's premises (R235). -/

/-- `len` bytes from `start` up are host RAM: inside the address space and outside the window (R85, R235). -/
def ValidBuffer (start len : Nat) : Prop :=
  start + len ≤ Config.addressSpace ∧ (start + len ≤ Config.i2cBase ∨ Config.i2cBase + Config.windowSize ≤ start)

/-- How many bytes `scan` can record at most: one per candidate (R224). -/
def scanRecords (maxFound : Word) : Nat := min (lengthOf maxFound) 112

/-- The buffer bytes a running operation may touch are host RAM (R235). -/
def Job.ValidBuffers : Job → Prop
  | .init _ => True
  | .write _ data len => ValidBuffer data.toNat (lengthOf len)
  | .read _ buffer len => ValidBuffer buffer.toNat (lengthOf len)
  | .scan found maxFound => ValidBuffer found.toNat (scanRecords maxFound)

/-- A call within R235: `init` with a divisor that is not 0, and valid buffers past the guard. -/
def Call.Valid : Call → Prop
  | .init p => p ≠ 0#32
  | .write _ data len => badArgument data len = false → ValidBuffer data.toNat (lengthOf len)
  | .read _ buffer len => badArgument buffer len = false → ValidBuffer buffer.toNat (lengthOf len)
  | .writeByte _ _ => True
  | .readByte _ p => badArgument p 1#32 = false → ValidBuffer p.toNat (lengthOf 1#32)
  | .scan found maxFound => badArgument found maxFound = false → ValidBuffer found.toNat (scanRecords maxFound)

/-- The host's program calls public operations and nothing else, each within R235. -/
def ProgramValid (s : State) : Prop := ∀ op ∈ s.program, ∃ c, op = .call c ∧ c.Valid

/-- Premise 4 of R235: no acknowledged read byte, that is none but a last one, was answered `Arb`. -/
def NoEarlyArb (s : State) : Prop := BusEvent.rx none true .arb ∉ s.history

/-! The driver's invariant. -/

/-- The positions of `send_byte`, `stop_sequence` and the waits that every transfer uses. -/
def DriverPos.isTransfer : DriverPos → Bool
  | .waitFree | .sendData | .sendStart | .sendWait | .sendClassify => true
  | .stopCommand | .stopWait | .stopFree | .ret => true
  | _ => false

/-- The positions of `wait_bus_free` and `send_byte` (R213, R216). -/
def DriverPos.isSend : DriverPos → Bool
  | .waitFree | .sendData | .sendStart | .sendWait | .sendClassify => true
  | _ => false

/-- The positions of the read loop (R221). -/
def DriverPos.isReceive : DriverPos → Bool
  | .recvCommand | .recvWait | .recvData | .storeByte => true
  | _ => false

/-- The operation stands at one of its own positions, with its loop variables in range (R219 to R224). -/
def Activation.InRange (a : Activation) : Prop :=
  match a.job with
  | .init p => p ≠ 0#32 ∧ (a.pos = .writePrescale ∨ a.pos = .delaySettle ∨ a.pos = .ret)
  | .write _ _ _ => a.pos.isTransfer = true ∨ (a.pos = .fetchByte ∧ a.index < a.job.length)
  | .read _ _ _ => 0 < a.job.length ∧
    ((a.pos.isTransfer = true ∧ (a.pos.isSend = true → a.index = 0)) ∨
      (a.pos.isReceive = true ∧ a.index < a.job.length))
  | .scan _ _ =>
    (a.pos.isTransfer = true ∨ a.pos = .recordFound) ∧ a.count ≤ a.job.length ∧ a.count ≤ 112 ∧
      (a.pos ≠ .ret → a.count < a.job.length ∧ 0x08 ≤ a.candidate.toNat ∧ a.candidate.toNat ≤ 0x77 ∧
        a.count + 0x08 ≤ a.candidate.toNat)

/-- What holds of the block at each position of a running operation. -/
def Activation.BlockAt (a : Activation) (s : State) : Prop :=
  match a.pos with
  | .writePrescale => Unengaged s
  | .delaySettle => Unengaged s ∧ s.prescaleSet = true ∧ s.prescale ≠ 0#32
  | .waitFree => Unengaged s ∧ Configured s
  | .sendData => s.inflight = none ∧ (s.own = true ∨ s.busy = false) ∧ Configured s
  | .sendStart => s.inflight = none ∧ (s.own = true ∨ s.busy = false) ∧ s.data.isSome = true ∧ Configured s
  | .sendWait => Configured s ∧
      ((s.inflight.any Cmd.isWrByte = true ∧ s.done = false ∧ s.own = true) ∨
        (s.inflight = none ∧ (s.own = true ∨ s.arbLost = true)))
  | .sendClassify => Configured s ∧ s.inflight = none ∧ (s.own = true ∨ s.arbLost = true)
  | .fetchByte => Configured s ∧ s.inflight = none ∧ s.own = true
  | .recvCommand => Configured s ∧ s.inflight = none ∧ s.own = true
  | .recvWait => Configured s ∧
      ((s.inflight = some (.rdByte (a.index + 1 != a.job.length)) ∧ s.done = false ∧ s.own = true) ∨
        (s.inflight = none ∧ s.data.isSome = true ∧ (a.index + 1 < a.job.length → s.own = true)))
  | .recvData => Configured s ∧ s.inflight = none ∧ s.data.isSome = true ∧ (a.index + 1 < a.job.length → s.own = true)
  | .storeByte => Configured s ∧ s.inflight = none ∧ (a.index + 1 < a.job.length → s.own = true)
  | .stopCommand => Configured s ∧ s.inflight = none
  | .stopWait => Configured s ∧
      ((s.inflight = some .stop ∧ s.done = false) ∨ Unengaged s)
  | .stopFree => Configured s ∧ Unengaged s
  | .recordFound => Configured s ∧ Unengaged s ∧ s.busy = false
  | .ret => Configured s ∧ Unengaged s ∧ ((∃ p, a.job = .init p) ∨ s.busy = false)

/-- Nothing is called before `init` (R292). -/
def InitFirst (s : State) : Prop := s.program = [] ∨ ∃ p rest, s.program = .call (.init p) :: rest

/-- The driver runs within R235 and stands where its procedures put it. Between operations the block is unengaged, and
configured unless `init` comes first, so that operations compose. -/
structure DriverInvariant (s : State) : Prop where
  no_fault : s.faults = []
  program_valid : ProgramValid s
  running : ∀ a, s.driver = some a → a.InRange ∧ a.job.ValidBuffers ∧ a.BlockAt s
  between : s.driver = none → Unengaged s ∧ (Configured s ∨ InitFirst s)

/-! What `read` and `scan` leave behind (R230, R231). -/

/-- The acknowledge bits of the received bytes at the end of a history, oldest first. -/
def trailingAcks (h : List BusEvent) : List Bool :=
  ((h.reverse.takeWhile fun e => match e with | .rx _ _ _ => true | _ => false).map
    fun e => match e with | .rx _ k _ => k | _ => false).reverse

/-- The acknowledge bits a `read` of `n` bytes asks for: all but the last (R230). -/
def acksOfRead (n : Nat) : List Bool := (List.range n).map fun i => i + 1 != n

/-- What a running `read` has received so far, at each position (R230). -/
def Activation.AcksAt (a : Activation) (s : State) : Prop :=
  match a.job, a.pos with
  | .read _ _ _, .sendWait => s.inflight = none → trailingAcks s.history = []
  | .read _ _ _, .sendClassify => trailingAcks s.history = []
  | .read _ _ _, .recvCommand => trailingAcks s.history = (acksOfRead a.job.length).take a.index
  | .read _ _ _, .recvWait =>
    (s.inflight = none → trailingAcks s.history = (acksOfRead a.job.length).take (a.index + 1)) ∧
      (s.inflight ≠ none → trailingAcks s.history = (acksOfRead a.job.length).take a.index)
  | .read _ _ _, .recvData => trailingAcks s.history = (acksOfRead a.job.length).take (a.index + 1)
  | .read _ _ _, .storeByte => trailingAcks s.history = (acksOfRead a.job.length).take (a.index + 1)
  | .read _ _ _, .stopCommand => a.result = .ok → trailingAcks s.history = acksOfRead a.job.length
  | _, _ => True

/-- The addresses a running `scan` has recorded: in range, ascending, and below the candidate (R231). -/
def Activation.FoundAt (a : Activation) (s : State) : Prop :=
  match a.job with
  | .scan found _ =>
    (∀ j < a.count, ∃ b, Memory.read s.memory (found.toNat + j) = some b ∧ 0x08 ≤ b.toNat ∧ b.toNat ≤ 0x77 ∧
      (a.pos ≠ .ret → b.toNat < a.candidate.toNat)) ∧
    (∀ j k b c, j < k → k < a.count → Memory.read s.memory (found.toNat + j) = some b →
      Memory.read s.memory (found.toNat + k) = some c → b.toNat < c.toNat)
  | _ => True

end Sys2Proof.Machine
end

