-- ==== Sys2Proof/Certificates/Slice0/Obligations.lean ====
section
/-! DEFINITION. The statements about the machine, from the numbered rules of spec/. -/

open Sys2Proof Sys2Proof.Machine

/-! ## Encoding -/

/-- R108: the complete decode of a CTRL write on bits 3:0, and the catch-all for bits 31:4, which faults. -/
def Obligations.CtrlWritesDecodeByTable : Prop :=
  decodeCtrlWrite 0x0#32 = .ctrlNop false ∧ decodeCtrlWrite 0x1#32 = .ctrlWrbyte false ∧
  decodeCtrlWrite 0x2#32 = .ctrlStop false ∧ decodeCtrlWrite 0x3#32 = .ctrlRsvStopStart false false ∧
  decodeCtrlWrite 0x4#32 = .ctrlRdbyteNack false ∧ decodeCtrlWrite 0x5#32 = .ctrlRdbyteNack true ∧
  decodeCtrlWrite 0x6#32 = .ctrlRsvStopRead false ∧ decodeCtrlWrite 0x7#32 = .ctrlRsvStopStart true false ∧
  decodeCtrlWrite 0x8#32 = .ctrlNop true ∧ decodeCtrlWrite 0x9#32 = .ctrlWrbyte true ∧
  decodeCtrlWrite 0xA#32 = .ctrlStop true ∧ decodeCtrlWrite 0xB#32 = .ctrlRsvStopStart false true ∧
  decodeCtrlWrite 0xC#32 = .ctrlRdbyteAck false ∧ decodeCtrlWrite 0xD#32 = .ctrlRdbyteAck true ∧
  decodeCtrlWrite 0xE#32 = .ctrlRsvStopRead true ∧ decodeCtrlWrite 0xF#32 = .ctrlRsvStopStart true true ∧
  ∀ v : Word, v.extractLsb' 4 28 ≠ 0#28 → decodeCtrlWrite v = .ctrlRsvBits v ∧
    ∀ s, exec (.ctrlRsvBits v) s = .next { s with faults := s.faults ++ [.reservedBits] }

/-- 95_test_vectors.md L2-A: a word of each register and direction decodes to its row. -/
def Obligations.SampleDescriptorsDecode : Prop :=
  decode 0x8000000001#40 = .ok (.ctrlWrbyte false) ∧ decode 0x800000000D#40 = .ok (.ctrlRdbyteAck true) ∧
  decode 0x8080000001#40 = .ok (.ctrlRsvBits 0x80000001#32) ∧ decode 0x0000000000#40 = .ok .ctrlRead ∧
  decode 0x0400000000#40 = .ok .statusRead ∧ decode 0x84FFFFFFFF#40 = .ok (.statusWrite 0xFFFFFFFF#32) ∧
  decode 0x88000000FF#40 = .ok (.dataWrite 0xFF#8) ∧ decode 0x88000001A5#40 = .ok (.dataWriteRsv 0x1A5#32) ∧
  decode 0x0800000000#40 = .ok .dataRead ∧ decode 0x8CFFFFFFFF#40 = .ok (.prescaleWrite 0xFFFFFFFF#32) ∧
  decode 0x0C00000000#40 = .ok .prescaleRead

/-- Decoding an encoded well-formed instruction gives it back: no bit of an encoding is dropped (R100, R101). -/
def Obligations.DecodeOfEncodeIsTheInstruction : Prop := ∀ i : Instr, i.wf = true → decode (encode i) = .ok i

/-- What the decoder reads is well-formed, and encodes to the descriptor it was read from. The word of a read is not
looked at (log 8), so for a read this is said of the descriptors of R100, whose WDATA is 0. -/
def Obligations.EncodeOfDecodeIsTheDescriptor : Prop :=
  ∀ (d : Descriptor) (i : Instr), decode d = .ok i →
    i.wf = true ∧ (isWrite d = true ∨ wdataOf d = 0#32 → encode i = d)

/-- R101, R115: the decoder answers the first row of the opcode table, in ascending priority, that a descriptor
matches under its mask, and rejects what no row matches. -/
def Obligations.DecoderFollowsTheOpcodeTable : Prop :=
  ∀ d : Descriptor, tableMnemonic d = match decode d with
    | .ok i => some i.mnemonic
    | .error _ => none

/-- R115: the rows of priority 1 are pairwise disjoint. -/
def Obligations.PriorityOneRowsAreDisjoint : Prop :=
  (opcodeTable.filter (·.priority == 1)).Pairwise fun p q =>
    ∀ d : Descriptor, ¬(p.accepts d = true ∧ q.accepts d = true)

/-- R106: the address byte is `{addr[6:0], rw}`, with the four examples of the rule. -/
def Obligations.AddressByteAppendsTheDirection : Prop :=
  (∀ (addr : DeviceAddr) (rw : Bool), (addrByte addr rw).toNat = 2 * addr.toNat + rw.toNat) ∧
  addrByte 0x50#7 false = 0xA0#8 ∧ addrByte 0x50#7 true = 0xA1#8 ∧ addrByte 0x7F#7 true = 0xFF#8 ∧
  addrByte 0x00#7 false = 0x00#8

/-! ## Admission -/

/-- R72: in the window only a 4-byte access at a multiple of 4 is admitted; any other access that touches the window
records BadWidth, and changes nothing else. -/
def Obligations.OnlyAlignedWordsAreAdmitted : Prop :=
  ∀ (base : Nat) (a : HostAccess),
    (base ≤ a.addr ∧ a.addr < base + 16 →
      (a.size ≠ .word ∨ (a.addr - base) % 4 ≠ 0 → admission base a = .badWidth) ∧
      (a.size = .word ∧ (a.addr - base) % 4 = 0 →
        admission base a = .window (descriptor a.write (a.addr - base) (if a.write then a.wdata else 0#32)))) ∧
    (a.addr < base ∧ base < a.addr + a.size.bytes → admission base a = .badWidth) ∧
    (a.addr + a.size.bytes ≤ base ∨ base + 16 ≤ a.addr → admission base a = .ram) ∧
    (∀ s, admission base a = .badWidth → memoryAccess base a s = .next { s with faults := s.faults ++ [.badWidth] })

/-- R101: every admitted access decodes to a row, for its direction and its register offset, and runs. -/
def Obligations.AdmittedAccessesDecode : Prop :=
  ∀ (base : Nat) (a : HostAccess) (d : Descriptor), admission base a = .window d →
    isWrite d = a.write ∧ offsetOf d = a.addr - base ∧
    ∃ i, decode d = .ok i ∧ i.wf = true ∧ ∀ s, ∃ t, exec i s = .next t ∧
      memoryAccess base a s = .next (hostAdvance (t.logAccess d))

/-! ## Reset -/

/-- R50: the reset value of every element of the block, for every draw of the unspecified ones, and the draws a read
of STATUS bits 31:5 and of CTRL, which have no storage, delivers; reset is one of these states. -/
def Obligations.ResetValues : Prop :=
  (∀ d : ResetDraws, let s := State.resetWith d
    s.busy = d.busy ∧ s.done = d.done ∧ s.error = d.error ∧ s.arbLost = d.arbLost ∧ s.ack = d.ack ∧
    s.data = none ∧ s.prescale = d.prescale ∧ s.prescaleSet = false ∧ s.own = false ∧ s.inflight = none ∧
    s.hung = false ∧ s.settled = false ∧ s.history = [] ∧ s.faults = [] ∧
    (∀ t, exec .statusRead s = .next t → t.loaded.extractLsb' 5 27 = Config.anyUInt27 s.draws) ∧
    (∀ t, exec .ctrlRead s = .next t → t.loaded = Config.anyWord s.draws)) ∧
  ∃ d, State.reset = State.resetWith d

/-- The block's invariant holds at reset, for every draw. -/
def Obligations.ResetMeetsBlockInvariant : Prop := ∀ d : ResetDraws, BlockInvariant (State.resetWith d)

/-! ## The step -/

/-- A step on the host's turn runs the access the host makes: the decoded instruction's meaning, the record of the
access, the host going on unless the access faulted, and the choice of who moves next. -/
def Obligations.StepRunsTheDecodedAccess : Prop :=
  ∀ (s : State) (d : Descriptor) (i : Instr), s.faults = [] → s.turn = .host → hostAction s = .register d →
    decode d = .ok i → ∃ t, exec i s = .next t ∧
      step s = .next (hostAdvance (t.logAccess d)).choose ∧
      (t.faults ≠ [] → hostAdvance (t.logAccess d) = { t with accesses := t.accesses ++ [d] }) ∧
      (t.faults = [] → s.driver = none →
        hostAdvance (t.logAccess d) = { t with accesses := t.accesses ++ [d], program := s.program.tail }) ∧
      (∀ a, t.faults = [] → s.driver = some a →
        hostAdvance (t.logAccess d) = { t with accesses := t.accesses ++ [d], driver := some (a.next t.loaded) })

/-- A placed word is what the next step runs. -/
def Obligations.PlacedWordRunsNext : Prop :=
  ∀ (s : State) (nbits w : Nat) (i : Instr), s.faults = [] → decodeTableWord nbits w = some i →
    ∃ t, exec i (s.withFetchWord nbits w) = .next t ∧
      step (s.withFetchWord nbits w) = .next (hostAdvance (t.logAccess (tableDescriptor nbits w))).choose

/-- R267 in the model's form (log 1): once a reason is recorded no agent has a step, and the step answers it. -/
def Obligations.FaultedStateIsQuiescent : Prop :=
  ∀ (s : State) (r : FaultReason) (rest : List FaultReason), s.faults = r :: rest →
    step s = .fault (.quiescent r) ∧ hostEnabled s = false ∧ ∀ h k, enabled h k s = false

/-- R11 in the model's form (log 4, log 21): the turn of an agent that has no enabled step is a hold, which changes
nothing but who moves next, when some agent has one, and the machine is stuck when none has. -/
def Obligations.AgentWithoutStepHolds : Prop :=
  ∀ s : State, s.faults = [] →
    (s.turn = .host ∧ hostEnabled s = false ∨ (∃ k, s.turn = .controller k ∧ enabled Config.hwFaultHang k s = false)) →
    (anyEnabled s = true → step s = .next { s with turn := Config.schedule s.ticks, ticks := s.ticks + 1 }) ∧
    (anyEnabled s = false → step s = .fault .stuck)

/-! ## The CTRL accesses -/

/-- R144: CTRL.NOP changes nothing, in any state. -/
def Obligations.CtrlNopChangesNothing : Prop :=
  encode (.ctrlNop false) = 0x8000000000#40 ∧ encode (.ctrlNop true) = 0x8000000008#40 ∧
  ∀ ackEn s, exec (.ctrlNop ackEn) s = .next s

/-- R145: CTRL.WRBYTE. On a held bus the command alone; on a free bus a START condition first; its faults are those of
R142, then DATA unwritten, then a busy bus that is not held. ACK_EN is ignored. -/
def Obligations.WrByteSendsTheByteInData : Prop :=
  encode (.ctrlWrbyte false) = 0x8000000001#40 ∧ encode (.ctrlWrbyte true) = 0x8000000009#40 ∧
  ∀ (ackEn : Bool) (s : State),
    (¬(s.inflight = none ∧ Configured s) → ∃ r, (r = .cmdInFlight ∨ r = .notConfigured ∨ r = .notSettled) ∧
      exec (.ctrlWrbyte ackEn) s = .next { s with faults := s.faults ++ [r] }) ∧
    (s.inflight = none → Configured s →
      (s.data = none → exec (.ctrlWrbyte ackEn) s = .next { s with faults := s.faults ++ [.dataUnwritten] }) ∧
      (s.data ≠ none → s.own = false → s.busy = true →
        exec (.ctrlWrbyte ackEn) s = .next { s with faults := s.faults ++ [.startBusBusy] }) ∧
      (s.data ≠ none → s.own = false → s.busy = false → exec (.ctrlWrbyte ackEn) s = .next { s with
        busy := true, own := true, history := s.history ++ [.start],
        done := false, error := false, arbLost := false, ack := false, inflight := some (.wrByte true) }) ∧
      (s.data ≠ none → s.own = true → exec (.ctrlWrbyte ackEn) s = .next { s with
        done := false, error := false, arbLost := false, ack := false, inflight := some (.wrByte false) }))

/-- R146, R147: the read commands on a held bus record the acknowledge to send; their faults are those of R142, then no
open transaction. START is ignored. -/
def Obligations.ReadCommandsRecordTheAcknowledge : Prop :=
  encode (.ctrlRdbyteAck false) = 0x800000000C#40 ∧ encode (.ctrlRdbyteAck true) = 0x800000000D#40 ∧
  encode (.ctrlRdbyteNack false) = 0x8000000004#40 ∧ encode (.ctrlRdbyteNack true) = 0x8000000005#40 ∧
  ∀ (start : Bool) (s : State),
    (¬(s.inflight = none ∧ Configured s) → ∃ r, (r = .cmdInFlight ∨ r = .notConfigured ∨ r = .notSettled) ∧
      exec (.ctrlRdbyteAck start) s = .next { s with faults := s.faults ++ [r] } ∧
      exec (.ctrlRdbyteNack start) s = .next { s with faults := s.faults ++ [r] }) ∧
    (s.inflight = none → Configured s →
      (s.own = false →
        exec (.ctrlRdbyteAck start) s = .next { s with faults := s.faults ++ [.readNotOwner] } ∧
        exec (.ctrlRdbyteNack start) s = .next { s with faults := s.faults ++ [.readNotOwner] }) ∧
      (s.own = true →
        exec (.ctrlRdbyteAck start) s = .next { s with
          done := false, error := false, arbLost := false, ack := false, inflight := some (.rdByte true) } ∧
        exec (.ctrlRdbyteNack start) s = .next { s with
          done := false, error := false, arbLost := false, ack := false, inflight := some (.rdByte false) }))

/-- R148: CTRL.STOP, with or without ownership; its two encodings, and its faults, which are those of R142. -/
def Obligations.StopIssues : Prop :=
  encode (.ctrlStop false) = 0x8000000002#40 ∧ encode (.ctrlStop true) = 0x800000000A#40 ∧
  (∀ (ackEn : Bool) (s : State), s.inflight = none → Configured s →
    exec (.ctrlStop ackEn) s = .next { s with
      done := false, error := false, arbLost := false, ack := false, inflight := some .stop }) ∧
  ∀ (ackEn : Bool) (s : State), ¬(s.inflight = none ∧ Configured s) →
    ∃ r, (r = .cmdInFlight ∨ r = .notConfigured ∨ r = .notSettled) ∧
      exec (.ctrlStop ackEn) s = .next { s with faults := s.faults ++ [r] }

/-- R142: the preconditions of the four commands, first failing check first. -/
def Obligations.CommandPreconditionsInOrder : Prop :=
  ∀ (i : Instr) (s : State), IsCommand i →
    (s.inflight ≠ none → exec i s = .next { s with faults := s.faults ++ [.cmdInFlight] }) ∧
    (s.inflight = none → s.prescaleSet = false ∨ s.prescale = 0#32 →
      exec i s = .next { s with faults := s.faults ++ [.notConfigured] }) ∧
    (s.inflight = none → s.prescaleSet = true → s.prescale ≠ 0#32 → s.settled = false →
      exec i s = .next { s with faults := s.faults ++ [.notSettled] })

/-- R149, R150: STOP written with START or READ records ReservedCommand in any state, and changes nothing else. -/
def Obligations.ReservedCommandsFault : Prop :=
  (∀ w : Word, w ∈ [0x3#32, 0x7#32, 0xB#32, 0xF#32] → ∃ read ackEn, decodeCtrlWrite w = .ctrlRsvStopStart read ackEn) ∧
  (∀ w : Word, w ∈ [0x6#32, 0xE#32] → ∃ ackEn, decodeCtrlWrite w = .ctrlRsvStopRead ackEn) ∧
  (∀ read ackEn s, exec (.ctrlRsvStopStart read ackEn) s = .next { s with faults := s.faults ++ [.reservedCommand] }) ∧
  ∀ ackEn s, exec (.ctrlRsvStopRead ackEn) s = .next { s with faults := s.faults ++ [.reservedCommand] }

/-- R151, R156: a reserved bit written to CTRL or DATA records ReservedBits in any state, and changes nothing else. -/
def Obligations.ReservedBitsFault : Prop :=
  (∀ v : Word, v.extractLsb' 4 28 ≠ 0#28 → decode (storeDescriptor 0x00 v) = .ok (.ctrlRsvBits v)) ∧
  (∀ v : Word, v.extractLsb' 8 24 ≠ 0#24 → decode (storeDescriptor 0x08 v) = .ok (.dataWriteRsv v)) ∧
  (∀ v s, exec (.ctrlRsvBits v) s = .next { s with faults := s.faults ++ [.reservedBits] }) ∧
  ∀ v s, exec (.dataWriteRsv v) s = .next { s with faults := s.faults ++ [.reservedBits] }

/-! ## The reads -/

/-- R152, R159: a read of CTRL or PRESCALE delivers a fresh draw and leaves the block as it is. -/
def Obligations.WriteOnlyRegistersReadAsDraws : Prop :=
  encode .ctrlRead = 0x0000000000#40 ∧ encode .prescaleRead = 0x0C00000000#40 ∧
  ∀ s, ∃ v : Word, exec .ctrlRead s = .next { s with loaded := v, draws := s.draws + 1 } ∧
    exec .prescaleRead s = .next { s with loaded := v, draws := s.draws + 1 } ∧ v = Config.anyWord s.draws

/-- R153: a STATUS read delivers the five flags in bits 4:0 and changes no flag; while a command is in flight, and so
while it hangs, DONE, ERROR, ARB_LOST and ACK read 0. -/
def Obligations.StatusReadDeliversTheFlags : Prop :=
  encode .statusRead = 0x0400000000#40 ∧
  ∀ s, ∃ v : Word, exec .statusRead s = .next { s with loaded := v, draws := s.draws + 1 } ∧
    v.getLsbD 0 = s.busy ∧ v.getLsbD 1 = s.done ∧ v.getLsbD 2 = s.error ∧ v.getLsbD 3 = s.arbLost ∧
    v.getLsbD 4 = s.ack ∧ v.extractLsb' 5 27 = Config.anyUInt27 s.draws ∧
    (BlockInvariant s → s.inflight ≠ none ∨ s.hung = true →
      v.getLsbD 1 = false ∧ v.getLsbD 2 = false ∧ v.getLsbD 3 = false ∧ v.getLsbD 4 = false)

/-- R77: a STATUS read clears no flag, and two with no controller step between them return the same bits 4:0. -/
def Obligations.RepeatedStatusReadsAgree : Prop :=
  ∀ s t u : State, exec .statusRead s = .next t → exec .statusRead t = .next u →
    u.loaded.extractLsb' 0 5 = t.loaded.extractLsb' 0 5 ∧ SameFlags s u ∧ u.busy = s.busy

/-- R157: a DATA read: a draw in flight; DataUnwritten with nothing stored; else the byte under drawn bits 31:8. It
does not consume the byte. -/
def Obligations.DataReadDeliversTheByte : Prop :=
  encode .dataRead = 0x0800000000#40 ∧
  (∀ s : State, s.inflight ≠ none →
    exec .dataRead s = .next { s with loaded := Config.anyWord s.draws, draws := s.draws + 1 }) ∧
  (∀ s : State, s.inflight = none → s.data = none →
    exec .dataRead s = .next { s with faults := s.faults ++ [.dataUnwritten] }) ∧
  ∀ (s : State) (b : Byte), s.inflight = none → s.data = some b → ∃ v : Word,
    v.setWidth 8 = b ∧ v.extractLsb' 8 24 = Config.anyUInt24 s.draws ∧
    exec .dataRead s = .next { s with loaded := v, draws := s.draws + 1 }

/-! ## The other writes -/

/-- R154: any write to STATUS records WriteReadOnly, and changes nothing else. -/
def Obligations.StatusWritesFault : Prop :=
  (∀ v : Word, decode (storeDescriptor 0x04 v) = .ok (.statusWrite v)) ∧
  ∀ v s, exec (.statusWrite v) s = .next { s with faults := s.faults ++ [.writeReadOnly] }

/-- R155: a DATA write stores the byte, or records DataInFlight while a command executes. -/
def Obligations.DataWriteStoresTheByte : Prop :=
  (∀ b : Byte, encode (.dataWrite b) = 0x8800000000#40 ||| b.setWidth 40) ∧
  (∀ (b : Byte) (s : State), s.inflight = none → exec (.dataWrite b) s = .next { s with data := some b }) ∧
  ∀ (b : Byte) (s : State), s.inflight ≠ none →
    exec (.dataWrite b) s = .next { s with faults := s.faults ++ [.dataInFlight] }

/-- R158: a PRESCALE write stores all 32 bits and restarts the settle time, or records PrescaleBusy while a command
executes or the bus is held. -/
def Obligations.PrescaleWriteStoresTheDivisor : Prop :=
  (∀ v : Word, encode (.prescaleWrite v) = 0x8C00000000#40 ||| v.setWidth 40) ∧
  (∀ (v : Word) (s : State), s.inflight = none → s.own = false →
    exec (.prescaleWrite v) s = .next { s with prescale := v, prescaleSet := true, settled := false }) ∧
  ∀ (v : Word) (s : State), s.inflight ≠ none ∨ s.own = true →
    exec (.prescaleWrite v) s = .next { s with faults := s.faults ++ [.prescaleBusy] }

/-! ## Frames of the accesses -/

/-- The frame of every access. None touches the host's side or a byte of host RAM, `hung`, or who moves next. Each
register of the block changes only in the rows the spec names for it: PRESCALE in PRESCALE.WRITE, DATA in DATA.WRITE,
BUSY, `own` and the history in CTRL.WRBYTE, the other flags and `inflight` in the four commands, the host's variable
in the reads. -/
def Obligations.AccessesWriteOnlyTheirRegisters : Prop :=
  ∀ (i : Instr) (s t : State), exec i s = .next t →
    SameHost s t ∧ t.hung = s.hung ∧ t.turn = s.turn ∧ t.ticks = s.ticks ∧
    ((∀ v, i ≠ .prescaleWrite v) →
      t.prescale = s.prescale ∧ t.prescaleSet = s.prescaleSet ∧ t.settled = s.settled) ∧
    ((∀ b, i ≠ .dataWrite b) → t.data = s.data) ∧
    ((∀ a, i ≠ .ctrlWrbyte a) → t.busy = s.busy ∧ t.own = s.own ∧ t.history = s.history) ∧
    (¬IsCommand i → SameFlags s t ∧ t.inflight = s.inflight) ∧
    (¬IsRead i → t.loaded = s.loaded ∧ t.draws = s.draws)

/-- R267, R268: an access that faults records exactly one reason and has no other effect. -/
def Obligations.FaultingAccessChangesNothingElse : Prop :=
  ∀ (i : Instr) (s t : State), exec i s = .next t → t.faults ≠ s.faults →
    ∃ r, t = { s with faults := s.faults ++ [r] }

/-! ## The controller -/

/-- R180: when each controller step is enabled, none once a fault is recorded; an enabled one may be taken. -/
def Obligations.ControllerStepsEnabledAsTabulated : Prop :=
  (∀ (h : Bool) (s : State), s.faults = [] →
    (enabled h .completeWrByte s = true ↔ (∃ sc, s.inflight = some (.wrByte sc)) ∧ s.hung = false) ∧
    (enabled h .completeRdByte s = true ↔ (∃ k, s.inflight = some (.rdByte k)) ∧ s.hung = false) ∧
    (enabled h .completeStop s = true ↔ s.inflight = some .stop ∧ s.hung = false) ∧
    (enabled h .release s = true ↔ s.inflight = none ∧ s.own = false ∧ s.busy = true) ∧
    (enabled h .hang s = true ↔ h = true ∧ s.inflight ≠ none ∧ s.hung = false) ∧
    (enabled h .settle s = true ↔ s.prescaleSet = true ∧ s.settled = false)) ∧
  (∀ (h : Bool) (k : ControllerStep) (s : State), s.faults ≠ [] → enabled h k s = false) ∧
  ∀ (k : ControllerStep) (s : State), s.turn = .controller k → enabled Config.hwFaultHang k s = true →
    step s = .next (controllerStep k s).choose

/-- R183: completing a WrByte, for every answer of the bus; on the controller's turn the machine takes the oracle's. -/
def Obligations.WrByteCompletes : Prop :=
  (∀ (b : Byte) (o : TxOutcome) (s : State), completeWrByte b o s = { s with
    history := s.history ++ [.tx b o], ack := s.ack || o == .ack, error := s.error || o == .err,
    arbLost := s.arbLost || o == .arb, own := s.own && o != .arb, done := true, inflight := none }) ∧
  ∀ (sc : Bool) (b : Byte) (s : State), s.faults = [] → s.turn = .controller .completeWrByte →
    s.inflight = some (.wrByte sc) → s.hung = false → s.data = some b →
    step s = .next { completeWrByte b (Config.busTx s.history b s.draws) s with
      draws := s.draws + 1, turn := Config.schedule s.ticks, ticks := s.ticks + 1 }

/-- R184: completing an RdByte, for every answer of the bus and every draw; on the controller's turn the machine takes
the oracle's answer, given the ACK_EN bit recorded at issue. -/
def Obligations.RdByteCompletes : Prop :=
  (∀ (k : Bool) (a : RxAnswer) (junk : Byte) (draw : Bool) (s : State),
    completeRdByte k a junk draw s = match a with
      | .ok b => { s with history := s.history ++ [.rx (some b) k .ok], data := some b,
                          ack := draw, done := true, inflight := none }
      | .err => { s with history := s.history ++ [.rx none k .err], data := some junk, error := true,
                         ack := draw, done := true, inflight := none }
      | .arb => { s with history := s.history ++ [.rx none k .arb], data := some junk, arbLost := true, own := false,
                         ack := draw, done := true, inflight := none }) ∧
  ∀ (k : Bool) (s : State), s.faults = [] → s.turn = .controller .completeRdByte →
    s.inflight = some (.rdByte k) → s.hung = false →
    step s = .next { completeRdByte k (Config.busRx s.history k s.draws) (Config.anyByte s.draws)
        (Config.anyBool s.draws) s with
      draws := s.draws + 1, turn := Config.schedule s.ticks, ticks := s.ticks + 1 }

/-- R185: completing a Stop, for every answer of the bus: with ownership a bus event, without it none; the bus is not
held afterwards. -/
def Obligations.StopCompletes : Prop :=
  (∀ (o : StopOutcome) (s : State), s.own = true → completeStop o s = { s with
    history := s.history ++ [.stop o], error := s.error || o == .err, arbLost := s.arbLost || o == .arb,
    own := false, done := true, inflight := none }) ∧
  (∀ (o : StopOutcome) (s : State), s.own = false → completeStop o s = { s with done := true, inflight := none }) ∧
  ∀ s : State, s.faults = [] → s.turn = .controller .completeStop → s.inflight = some .stop → s.hung = false →
    (s.own = true → step s = .next { completeStop (Config.busStop s.history s.draws) s with
      draws := s.draws + 1, turn := Config.schedule s.ticks, ticks := s.ticks + 1 }) ∧
    (s.own = false → step s = .next { s with
      done := true, inflight := none, turn := Config.schedule s.ticks, ticks := s.ticks + 1 })

/-- R187: the hang step at the default HW_FAULT_HANG; that it is never enabled with the parameter false; and that a hung
command stays hung and in flight, with DONE 0, whatever any agent does. -/
def Obligations.HungCommandNeverCompletes : Prop :=
  (∀ s : State, s.faults = [] → s.turn = .controller .hang → s.inflight ≠ none → s.hung = false →
    step s = .next { s with hung := true, turn := Config.schedule s.ticks, ticks := s.ticks + 1 }) ∧
  (∀ s : State, enabled false .hang s = false) ∧
  ∀ s t : State, step s = .next t →
    (s.hung = true → s.inflight ≠ none → s.done = false → t.hung = true ∧ t.inflight = s.inflight ∧ t.done = false) ∧
    (s.hung = true → t.hung = true) ∧
    (s.hung = false → t.hung = true → s.turn = .controller .hang ∧ s.inflight ≠ none)

/-- R186, R188: the release step and the settle step, each where it is enabled. -/
def Obligations.ReleaseAndSettle : Prop :=
  (∀ s : State, s.faults = [] → s.turn = .controller .release → s.inflight = none → s.own = false → s.busy = true →
    step s = .next { s with busy := false, turn := Config.schedule s.ticks, ticks := s.ticks + 1 }) ∧
  ∀ s : State, s.faults = [] → s.turn = .controller .settle → s.prescaleSet = true → s.settled = false →
    step s = .next { s with settled := true, turn := Config.schedule s.ticks, ticks := s.ticks + 1 }

/-- The controller never touches PRESCALE, the recorded faults or the host's side, and writes DATA only in a read's
completion. -/
def Obligations.ControllerFrame : Prop :=
  ∀ (k : ControllerStep) (s : State),
    let t := controllerStep k s
    SameHost s t ∧ t.loaded = s.loaded ∧ t.faults = s.faults ∧ t.prescale = s.prescale ∧
    t.prescaleSet = s.prescaleSet ∧ t.turn = s.turn ∧ t.ticks = s.ticks ∧
    (k ≠ .completeRdByte → t.data = s.data) ∧ (k ≠ .release → t.busy = s.busy) ∧
    (k ≠ .hang → t.hung = s.hung) ∧ (k ≠ .settle → t.settled = s.settled)

/-! ## Rules of the whole machine -/

/-- The block's invariant is kept by every step. -/
def Obligations.EveryStepKeepsTheBlockInvariant : Prop :=
  ∀ s t : State, BlockInvariant s → step s = .next t → BlockInvariant t

/-- R34: BUSY is set only by a CTRL.WRBYTE issued without ownership, which generates a START condition, and cleared
only by the release step; it is drawn at reset, where the bus is not held. -/
def Obligations.BusyChangesOnlyAtStartAndRelease : Prop :=
  (∀ s t : State, step s = .next t →
    (s.busy = false → t.busy = true → s.turn = .host ∧ s.own = false ∧ t.own = true ∧
      t.inflight = some (.wrByte true) ∧ t.history = s.history ++ [.start]) ∧
    (s.busy = true → t.busy = false → s.turn = .controller .release ∧ s.own = false ∧ s.inflight = none)) ∧
  ∀ d : ResetDraws, (State.resetWith d).busy = d.busy ∧ (State.resetWith d).own = false ∧
    (State.resetWith d).inflight = none

/-- R190: while no command is in flight, no step but the issue of one changes DONE, ERROR, ARB_LOST or ACK; BUSY can
only fall, and only without ownership; so STATUS classifies the last command the same way. -/
def Obligations.FlagsAreStableBetweenCommands : Prop :=
  ∀ s t : State, step s = .next t → s.inflight = none → t.inflight = none →
    SameFlags s t ∧
    (t.busy = s.busy ∨ s.busy = true ∧ t.busy = false ∧ s.own = false ∧ s.turn = .controller .release) ∧
    ∀ u v, classify (statusWord u t) = classify (statusWord v s)

/-- R81: no step changes DATA while a byte is being sent, so the byte a command sends is the one DATA held at issue. -/
def Obligations.DataIsStableWhileSending : Prop :=
  ∀ (s t : State) (sc : Bool), step s = .next t → s.inflight = some (.wrByte sc) → t.data = s.data

/-- R189: a fair step of the controller that is enabled stays so until it is taken, the command hangs, the host makes an
access that faults, or, for release, a command is issued. So in every weakly fair endless run, under any schedule, a
command that is not hung completes, a bus free of commands and not held is released unless a command is issued first, and
a PRESCALE write settles; in a run that ends stuck none of the three is outstanding; and a fair run may still hang. -/
def Obligations.FairRunsCompleteReleaseAndSettle : Prop :=
  (∀ (s t : State) (k : ControllerStep), isFair k = true → step s = .next t →
    enabled Config.hwFaultHang k s = true → s.turn ≠ .controller k → s.turn ≠ .controller .hang → t.faults = [] →
    enabled Config.hwFaultHang k t = true ∨ (k = .release ∧ t.inflight ≠ none)) ∧
  (∀ (sched : Nat → Turn) (r : Nat → State) (n : Nat), IsRun sched r → WeaklyFair r →
    ((r n).inflight ≠ none → (∀ m, n ≤ m → (r m).hung = false) →
      ∃ m, n ≤ m ∧ (r m).inflight = none ∧ (r m).done = true) ∧
    ((r n).inflight = none → (r n).own = false → ∃ m, n ≤ m ∧ ((r m).busy = false ∨ (r m).inflight ≠ none)) ∧
    ((r n).prescaleSet = true → ∃ m, n ≤ m ∧ (r m).settled = true)) ∧
  (∀ (sched : Nat → Turn) (s : State), stepBy sched s = .fault .stuck →
    (s.inflight = none ∨ s.hung = true) ∧ (s.inflight = none → s.own = false → s.busy = false) ∧
    (s.prescaleSet = true → s.settled = true)) ∧
  ∃ (sched : Nat → Turn) (r : Nat → State), IsRun sched r ∧ WeaklyFair r ∧
    ∀ n, 0 < n → (r n).inflight ≠ none ∧ (r n).hung = true

/-- R40, R299: PRESCALE changes only in a host's turn, and only while no command is in flight and the bus is not held. -/
def Obligations.PrescaleChangesOnlyWhileIdle : Prop :=
  ∀ s t : State, step s = .next t → t.prescale ≠ s.prescale ∨ t.prescaleSet ≠ s.prescaleSet →
    s.turn = .host ∧ s.inflight = none ∧ s.own = false

/-- R45: the history only grows, by at most one event in a step, and a step that records a fault adds none. -/
def Obligations.HistoryOnlyGrows : Prop :=
  ∀ s t : State, step s = .next t →
    (t.history = s.history ∨ ∃ e, t.history = s.history ++ [e]) ∧ (t.faults ≠ [] → t.history = s.history)

/-- R10, R85: a store to host RAM writes the bytes from its address up, low byte lowest (log 12), and leaves every
other byte; a load leaves all of them. -/
def Obligations.RamStoreWritesItsBytes : Prop :=
  ∀ (a : HostAccess) (s t : State), ramAccess a s = .next t →
    (a.write = true → ∀ x,
      (x < a.addr ∨ a.addr + a.size.bytes ≤ x → Memory.read t.memory x = Memory.read s.memory x) ∧
      (a.addr ≤ x → x < a.addr + a.size.bytes →
        Memory.read t.memory x = some ((a.wdata >>> (8 * (x - a.addr))).setWidth 8))) ∧
    (a.write = false → ∀ x, Memory.read t.memory x = Memory.read s.memory x) ∧
    SameFlags s t ∧ t.busy = s.busy ∧ t.data = s.data ∧ t.own = s.own ∧ t.inflight = s.inflight ∧
    t.history = s.history ∧ t.faults = s.faults

/-! ## The driver -/

/-- R215: the result code `classify` reads from the STATUS word of a state, whatever its reserved bits. -/
def Obligations.ClassifyMapsTheFlags : Prop :=
  ∀ (u : BitVec 27) (s : State),
    (s.arbLost = true → classify (statusWord u s) = .arbLost) ∧
    (s.arbLost = false → s.error = true → classify (statusWord u s) = .error) ∧
    (s.arbLost = false → s.error = false → s.ack = false → classify (statusWord u s) = .nack) ∧
    (s.arbLost = false → s.error = false → s.ack = true → classify (statusWord u s) = .ok)

/-- R216, with R214: `send_byte` stores the byte, issues CMD START, polls DONE and classifies the flags, one access a
step, each recorded. -/
def Obligations.SendByteRunsItsProcedure : Prop :=
  ∀ (s : State) (a : Activation), s.faults = [] → s.turn = .host → s.driver = some a →
    (a.pos = .sendData → s.inflight = none → ∃ t, step s = .next t ∧ t.data = some a.byte ∧
      t.accesses = s.accesses ++ [0x8800000000#40 ||| a.byte.setWidth 40] ∧ t.driver = some (a.goto .sendStart)) ∧
    (a.pos = .sendStart → s.inflight = none → Configured s → s.data ≠ none → s.own = true ∨ s.busy = false →
      ∃ t, step s = .next t ∧ t.inflight = some (.wrByte (!s.own)) ∧ t.own = true ∧ t.done = false ∧
        t.accesses = s.accesses ++ [0x8000000001#40] ∧ t.driver = some (a.goto .sendWait)) ∧
    (a.pos = .sendWait → ∃ t, step s = .next t ∧ t.accesses = s.accesses ++ [0x0400000000#40] ∧
      t.driver = some (if s.done then a.goto .sendClassify else a)) ∧
    (a.pos = .sendClassify → ∃ t, step s = .next t ∧ t.accesses = s.accesses ++ [0x0400000000#40] ∧
      t.driver = some (Activation.afterSend { a with result :=
        if s.arbLost then .arbLost else if s.error then .error else if s.ack then .ok else .nack }))

/-- R217, with R214: `recv_byte` issues CMD READ_NACK for the last byte and CMD READ_ACK for the others, polls DONE, and
reads DATA; it looks at no other flag. -/
def Obligations.ReceiveByteRunsItsProcedure : Prop :=
  ∀ (s : State) (a : Activation), s.faults = [] → s.turn = .host → s.driver = some a →
    (a.pos = .recvCommand → s.inflight = none → Configured s →
      (s.own = true → ∃ t, step s = .next t ∧ t.inflight = some (.rdByte (a.index + 1 != a.job.length)) ∧
        t.accesses = s.accesses ++ [if a.index + 1 = a.job.length then 0x8000000004#40 else 0x800000000C#40] ∧
        t.driver = some (a.goto .recvWait)) ∧
      (s.own = false → ∃ t, step s = .next t ∧ t.faults = [.readNotOwner] ∧ t.driver = some a)) ∧
    (a.pos = .recvWait → ∃ t, step s = .next t ∧ t.accesses = s.accesses ++ [0x0400000000#40] ∧
      t.driver = some (if s.done then a.goto .recvData else a)) ∧
    ∀ b : Byte, a.pos = .recvData → s.inflight = none → s.data = some b → ∃ t, step s = .next t ∧
      t.accesses = s.accesses ++ [0x0800000000#40] ∧ t.driver = some { a with byte := b, pos := .storeByte }

/-- R218, with R213, R214 and R233: `stop_sequence` issues CMD STOP with or without ownership, polls DONE, polls until
BUSY clears, and keeps the result held before it. -/
def Obligations.StopSequenceRunsItsProcedure : Prop :=
  ∀ (s : State) (a : Activation), s.faults = [] → s.turn = .host → s.driver = some a →
    (a.pos = .stopCommand → s.inflight = none → Configured s → ∃ t, step s = .next t ∧ t.inflight = some .stop ∧
      t.accesses = s.accesses ++ [0x8000000002#40] ∧ t.driver = some (a.goto .stopWait)) ∧
    (a.pos = .stopWait → ∃ t, step s = .next t ∧ t.accesses = s.accesses ++ [0x0400000000#40] ∧
      t.driver = some (if s.done then a.goto .stopFree else a)) ∧
    (a.pos = .stopFree → ∃ t, step s = .next t ∧ t.accesses = s.accesses ++ [0x0400000000#40] ∧
      t.driver = some (if s.busy then a else a.afterStop)) ∧
    (a.goto .stopWait).result = a.result ∧ (a.goto .stopFree).result = a.result ∧ a.afterStop.result = a.result

/-- R232: a guarded call returns ERROR, or 0 for `scan`, with no register access and no change of the block. -/
def Obligations.GuardedCallsTouchNothing : Prop :=
  ∀ (s : State) (c : Call) (rest : List HostOp) (r : Returned), s.faults = [] → s.turn = .host → s.driver = none →
    s.program = .call c :: rest →
    ((∃ addr data len, (c = .write addr data len ∨ c = .read addr data len) ∧ (data = 0#32 ∨ len.toInt ≤ 0) ∧
        r = .status .error) ∨
      (∃ addr, c = .readByte addr 0#32 ∧ r = .status .error) ∨
      (∃ found maxFound, c = .scan found maxFound ∧ (found = 0#32 ∨ maxFound.toInt ≤ 0) ∧ r = .count 0)) →
    step s = .next { s with program := rest, results := s.results ++ [r],
                            turn := Config.schedule s.ticks, ticks := s.ticks + 1 }

/-- R219: `init` writes PRESCALE, holds until the settle step, and returns OK, for every divisor; PrescaleBusy while a
command is in flight or the bus is held. -/
def Obligations.InitWritesPrescaleAndWaits : Prop :=
  ∀ (s : State) (a : Activation) (p : Word), s.faults = [] → s.turn = .host → a.job = .init p →
    (∀ rest, s.driver = none → s.program = .call (.init p) :: rest → ∃ t b, step s = .next t ∧ t.driver = some b ∧
      b.job = .init p ∧ b.pos = .writePrescale) ∧
    (s.driver = some a → a.pos = .writePrescale → s.inflight = none → s.own = false → ∃ t b, step s = .next t ∧
      t.prescale = p ∧ t.prescaleSet = true ∧ t.settled = false ∧ t.driver = some b ∧ b.job = .init p ∧
      b.pos = .delaySettle) ∧
    (s.driver = some a → a.pos = .writePrescale → s.inflight ≠ none ∨ s.own = true → ∃ t, step s = .next t ∧
      t.faults = [.prescaleBusy] ∧ t.prescale = s.prescale) ∧
    (s.driver = some a → a.pos = .delaySettle → s.settled = false → s.prescaleSet = true →
      step s = .next { s with turn := Config.schedule s.ticks, ticks := s.ticks + 1 }) ∧
    (s.driver = some a → a.pos = .delaySettle → s.settled = true → ∃ t b, step s = .next t ∧ t.driver = some b ∧
      b.job = .init p ∧ b.pos = .ret) ∧
    (s.driver = some a → a.pos = .ret → ∃ t, step s = .next t ∧ t.driver = none ∧
      t.results = s.results ++ [.status .ok] ∧ (Returned.status .ok).code = 0#32)

/-- R292: the reset state whose program calls `init` with a divisor that is not 0 first, and valid calls after it,
meets the driver's invariant, for every draw. -/
def Obligations.BootOrderMeetsTheDriverInvariant : Prop :=
  ∀ (d : ResetDraws) (p : Word) (calls : List Call), p ≠ 0#32 → (∀ c ∈ calls, c.Valid) →
    DriverInvariant { State.resetWith d with program := .call (.init p) :: calls.map .call }

/-- R235: under its premises every step of the machine, whoever moves and whatever the bus answers, keeps the driver's
invariant, and so records no fault; premise 4 is said of the history the step leaves. -/
def Obligations.DriverInvariantIsKept : Prop :=
  ∀ s t : State, DriverInvariant s → step s = .next t → NoEarlyArb t → DriverInvariant t

/-- R235: under its premises a step records no fault and does not stop, unless no agent has a step left. -/
def Obligations.DriverNeverFaults : Prop :=
  ∀ s : State, DriverInvariant s →
    (∃ t, step s = .next t ∧ t.faults = []) ∨ (step s = .fault .stuck ∧ anyEnabled s = false)

/-- R229: a transfer operation that returns leaves the bus released: not held, not busy, nothing in flight. -/
def Obligations.TransfersReturnWithTheBusFree : Prop :=
  ∀ (s : State) (a : Activation), DriverInvariant s → s.turn = .host → s.driver = some a → a.pos = .ret →
    ∃ t, step s = .next t ∧ t.driver = none ∧ t.own = false ∧ t.inflight = none ∧
      ((∀ p, a.job ≠ .init p) → t.busy = false) ∧ t.results = s.results ++ [a.returned]

/-- R230: a `read` asks for the acknowledge of every byte but the last: every step keeps the record of the acknowledge
bits, and a read that reaches its STOP with result OK has received exactly those. -/
def Obligations.ReadAcknowledgesAllButTheLast : Prop :=
  (∀ s t : State, DriverInvariant s → (∀ a, s.driver = some a → a.AcksAt s) → step s = .next t → NoEarlyArb t →
    ∀ a, t.driver = some a → a.AcksAt t) ∧
  (∀ n, 0 < n → acksOfRead n = List.replicate (n - 1) true ++ [false]) ∧
  ∀ (s : State) (a : Activation) (addr : DeviceAddr) (buffer len : Word), a.AcksAt s → a.job = .read addr buffer len →
    a.pos = .stopCommand → a.result = .ok → trailingAcks s.history = acksOfRead (lengthOf len)

/-- R231: the addresses `scan` records lie in 0x08 to 0x77 and ascend, and their count is bounded, at every step. -/
def Obligations.ScanRecordsAscendingAddresses : Prop :=
  (∀ s t : State, DriverInvariant s → (∀ a, s.driver = some a → a.FoundAt s) → step s = .next t → NoEarlyArb t →
    ∀ a, t.driver = some a → a.FoundAt t) ∧
  ∀ (s : State) (a : Activation) (found maxFound : Word), DriverInvariant s → s.driver = some a →
    a.job = .scan found maxFound → a.count ≤ lengthOf maxFound ∧ a.count ≤ 112

/-- R85, R220, R222: a running operation writes host RAM only in its own buffer, `read` at `buffer + i` and `scan` at
`found + count`; entering a call writes none, but for `write_byte`, whose byte comes to lie at a non-null host RAM address
(free: log 14) from which it runs as a `write` of one byte; and `write` sends the byte its buffer holds at `data + i`. -/
def Obligations.OperationsUseOnlyTheirBuffers : Prop :=
  (∀ (s t : State) (a : Activation) (x : Nat), DriverInvariant s → s.driver = some a → step s = .next t →
    Memory.read t.memory x ≠ Memory.read s.memory x →
    (∃ addr buffer len, a.job = .read addr buffer len ∧ a.pos = .storeByte ∧ x = buffer.toNat + a.index ∧
      a.index < lengthOf len) ∨
    (∃ found maxFound, a.job = .scan found maxFound ∧ a.pos = .recordFound ∧ x = found.toNat + a.count ∧
      a.count < lengthOf maxFound)) ∧
  (∀ (s : State) (c : Call) (rest : List HostOp), s.faults = [] → s.turn = .host → s.driver = none →
    s.program = .call c :: rest → ∃ t, step s = .next t ∧
      ((∀ addr b, c ≠ .writeByte addr b) → t.memory = s.memory) ∧
      ∀ addr b, c = .writeByte addr b → ∃ p : Word, p ≠ 0#32 ∧ ValidBuffer p.toNat 1 ∧
        t.driver = some (.start (.write addr p 1#32) .waitFree) ∧ Memory.read t.memory p.toNat = some b ∧
        ∀ x, x ≠ p.toNat → Memory.read t.memory x = Memory.read s.memory x) ∧
  ∀ (s : State) (a : Activation) (addr : DeviceAddr) (data len : Word) (b : Byte), DriverInvariant s → s.turn = .host →
    s.driver = some a → a.job = .write addr data len → a.pos = .fetchByte →
    Memory.read s.memory (data.toNat + a.index) = some b →
    ∃ t, step s = .next t ∧ t.driver = some (a.sendPayload b) ∧ t.memory = s.memory

/-- R266: BUSY is the code -4, and no step makes an operation return it. -/
def Obligations.NoOperationReturnsBusy : Prop :=
  (Returned.status .busy).code = BitVec.ofInt 32 (-4) ∧
  ∀ s t : State, (∀ a, s.driver = some a → a.result ≠ .busy) → Returned.status .busy ∉ s.results →
    step s = .next t → (∀ a, t.driver = some a → a.result ≠ .busy) ∧ Returned.status .busy ∉ t.results
end

