-- ==== Sys2Proof/Laws/State.lean ====
section
/-! SUPPORT. What each update of the state leaves in each field, true by rfl, so that no proof unfolds a record update. -/

namespace Sys2Proof.Machine

section
variable (s : State) (e : BusEvent)
@[simp] theorem emit_busy : (s.emit e).busy = s.busy := rfl
@[simp] theorem emit_done : (s.emit e).done = s.done := rfl
@[simp] theorem emit_error : (s.emit e).error = s.error := rfl
@[simp] theorem emit_arbLost : (s.emit e).arbLost = s.arbLost := rfl
@[simp] theorem emit_ack : (s.emit e).ack = s.ack := rfl
@[simp] theorem emit_data : (s.emit e).data = s.data := rfl
@[simp] theorem emit_prescale : (s.emit e).prescale = s.prescale := rfl
@[simp] theorem emit_prescaleSet : (s.emit e).prescaleSet = s.prescaleSet := rfl
@[simp] theorem emit_own : (s.emit e).own = s.own := rfl
@[simp] theorem emit_inflight : (s.emit e).inflight = s.inflight := rfl
@[simp] theorem emit_hung : (s.emit e).hung = s.hung := rfl
@[simp] theorem emit_settled : (s.emit e).settled = s.settled := rfl
@[simp] theorem emit_history : (s.emit e).history = s.history ++ [e] := rfl
@[simp] theorem emit_faults : (s.emit e).faults = s.faults := rfl
@[simp] theorem emit_loaded : (s.emit e).loaded = s.loaded := rfl
@[simp] theorem emit_program : (s.emit e).program = s.program := rfl
@[simp] theorem emit_driver : (s.emit e).driver = s.driver := rfl
@[simp] theorem emit_results : (s.emit e).results = s.results := rfl
@[simp] theorem emit_memory : (s.emit e).memory = s.memory := rfl
@[simp] theorem emit_accesses : (s.emit e).accesses = s.accesses := rfl
@[simp] theorem emit_turn : (s.emit e).turn = s.turn := rfl
@[simp] theorem emit_ticks : (s.emit e).ticks = s.ticks := rfl
@[simp] theorem emit_draws : (s.emit e).draws = s.draws := rfl
end

section
variable (s : State) (c : Cmd)
@[simp] theorem issue_busy : (s.issue c).busy = s.busy := rfl
@[simp] theorem issue_done : (s.issue c).done = false := rfl
@[simp] theorem issue_error : (s.issue c).error = false := rfl
@[simp] theorem issue_arbLost : (s.issue c).arbLost = false := rfl
@[simp] theorem issue_ack : (s.issue c).ack = false := rfl
@[simp] theorem issue_data : (s.issue c).data = s.data := rfl
@[simp] theorem issue_prescale : (s.issue c).prescale = s.prescale := rfl
@[simp] theorem issue_prescaleSet : (s.issue c).prescaleSet = s.prescaleSet := rfl
@[simp] theorem issue_own : (s.issue c).own = s.own := rfl
@[simp] theorem issue_inflight : (s.issue c).inflight = some c := rfl
@[simp] theorem issue_hung : (s.issue c).hung = s.hung := rfl
@[simp] theorem issue_settled : (s.issue c).settled = s.settled := rfl
@[simp] theorem issue_history : (s.issue c).history = s.history := rfl
@[simp] theorem issue_faults : (s.issue c).faults = s.faults := rfl
@[simp] theorem issue_loaded : (s.issue c).loaded = s.loaded := rfl
@[simp] theorem issue_program : (s.issue c).program = s.program := rfl
@[simp] theorem issue_driver : (s.issue c).driver = s.driver := rfl
@[simp] theorem issue_results : (s.issue c).results = s.results := rfl
@[simp] theorem issue_memory : (s.issue c).memory = s.memory := rfl
@[simp] theorem issue_accesses : (s.issue c).accesses = s.accesses := rfl
@[simp] theorem issue_turn : (s.issue c).turn = s.turn := rfl
@[simp] theorem issue_ticks : (s.issue c).ticks = s.ticks := rfl
@[simp] theorem issue_draws : (s.issue c).draws = s.draws := rfl
end

section
variable (s : State)
@[simp] theorem finish_busy : (s.finish).busy = s.busy := rfl
@[simp] theorem finish_done : (s.finish).done = true := rfl
@[simp] theorem finish_error : (s.finish).error = s.error := rfl
@[simp] theorem finish_arbLost : (s.finish).arbLost = s.arbLost := rfl
@[simp] theorem finish_ack : (s.finish).ack = s.ack := rfl
@[simp] theorem finish_data : (s.finish).data = s.data := rfl
@[simp] theorem finish_prescale : (s.finish).prescale = s.prescale := rfl
@[simp] theorem finish_prescaleSet : (s.finish).prescaleSet = s.prescaleSet := rfl
@[simp] theorem finish_own : (s.finish).own = s.own := rfl
@[simp] theorem finish_inflight : (s.finish).inflight = none := rfl
@[simp] theorem finish_hung : (s.finish).hung = s.hung := rfl
@[simp] theorem finish_settled : (s.finish).settled = s.settled := rfl
@[simp] theorem finish_history : (s.finish).history = s.history := rfl
@[simp] theorem finish_faults : (s.finish).faults = s.faults := rfl
@[simp] theorem finish_loaded : (s.finish).loaded = s.loaded := rfl
@[simp] theorem finish_program : (s.finish).program = s.program := rfl
@[simp] theorem finish_driver : (s.finish).driver = s.driver := rfl
@[simp] theorem finish_results : (s.finish).results = s.results := rfl
@[simp] theorem finish_memory : (s.finish).memory = s.memory := rfl
@[simp] theorem finish_accesses : (s.finish).accesses = s.accesses := rfl
@[simp] theorem finish_turn : (s.finish).turn = s.turn := rfl
@[simp] theorem finish_ticks : (s.finish).ticks = s.ticks := rfl
@[simp] theorem finish_draws : (s.finish).draws = s.draws := rfl
end

section
variable (s : State) (v : Word)
@[simp] theorem load_busy : (s.load v).busy = s.busy := rfl
@[simp] theorem load_done : (s.load v).done = s.done := rfl
@[simp] theorem load_error : (s.load v).error = s.error := rfl
@[simp] theorem load_arbLost : (s.load v).arbLost = s.arbLost := rfl
@[simp] theorem load_ack : (s.load v).ack = s.ack := rfl
@[simp] theorem load_data : (s.load v).data = s.data := rfl
@[simp] theorem load_prescale : (s.load v).prescale = s.prescale := rfl
@[simp] theorem load_prescaleSet : (s.load v).prescaleSet = s.prescaleSet := rfl
@[simp] theorem load_own : (s.load v).own = s.own := rfl
@[simp] theorem load_inflight : (s.load v).inflight = s.inflight := rfl
@[simp] theorem load_hung : (s.load v).hung = s.hung := rfl
@[simp] theorem load_settled : (s.load v).settled = s.settled := rfl
@[simp] theorem load_history : (s.load v).history = s.history := rfl
@[simp] theorem load_faults : (s.load v).faults = s.faults := rfl
@[simp] theorem load_loaded : (s.load v).loaded = v := rfl
@[simp] theorem load_program : (s.load v).program = s.program := rfl
@[simp] theorem load_driver : (s.load v).driver = s.driver := rfl
@[simp] theorem load_results : (s.load v).results = s.results := rfl
@[simp] theorem load_memory : (s.load v).memory = s.memory := rfl
@[simp] theorem load_accesses : (s.load v).accesses = s.accesses := rfl
@[simp] theorem load_turn : (s.load v).turn = s.turn := rfl
@[simp] theorem load_ticks : (s.load v).ticks = s.ticks := rfl
@[simp] theorem load_draws : (s.load v).draws = s.draws := rfl
end

section
variable (s : State) (n : Nat)
@[simp] theorem drew_busy : (s.drew n).busy = s.busy := rfl
@[simp] theorem drew_done : (s.drew n).done = s.done := rfl
@[simp] theorem drew_error : (s.drew n).error = s.error := rfl
@[simp] theorem drew_arbLost : (s.drew n).arbLost = s.arbLost := rfl
@[simp] theorem drew_ack : (s.drew n).ack = s.ack := rfl
@[simp] theorem drew_data : (s.drew n).data = s.data := rfl
@[simp] theorem drew_prescale : (s.drew n).prescale = s.prescale := rfl
@[simp] theorem drew_prescaleSet : (s.drew n).prescaleSet = s.prescaleSet := rfl
@[simp] theorem drew_own : (s.drew n).own = s.own := rfl
@[simp] theorem drew_inflight : (s.drew n).inflight = s.inflight := rfl
@[simp] theorem drew_hung : (s.drew n).hung = s.hung := rfl
@[simp] theorem drew_settled : (s.drew n).settled = s.settled := rfl
@[simp] theorem drew_history : (s.drew n).history = s.history := rfl
@[simp] theorem drew_faults : (s.drew n).faults = s.faults := rfl
@[simp] theorem drew_loaded : (s.drew n).loaded = s.loaded := rfl
@[simp] theorem drew_program : (s.drew n).program = s.program := rfl
@[simp] theorem drew_driver : (s.drew n).driver = s.driver := rfl
@[simp] theorem drew_results : (s.drew n).results = s.results := rfl
@[simp] theorem drew_memory : (s.drew n).memory = s.memory := rfl
@[simp] theorem drew_accesses : (s.drew n).accesses = s.accesses := rfl
@[simp] theorem drew_turn : (s.drew n).turn = s.turn := rfl
@[simp] theorem drew_ticks : (s.drew n).ticks = s.ticks := rfl
@[simp] theorem drew_draws : (s.drew n).draws = s.draws + n := rfl
end

section
variable (s : State) (r : FaultReason)
@[simp] theorem recordFault_busy : (s.recordFault r).busy = s.busy := rfl
@[simp] theorem recordFault_done : (s.recordFault r).done = s.done := rfl
@[simp] theorem recordFault_error : (s.recordFault r).error = s.error := rfl
@[simp] theorem recordFault_arbLost : (s.recordFault r).arbLost = s.arbLost := rfl
@[simp] theorem recordFault_ack : (s.recordFault r).ack = s.ack := rfl
@[simp] theorem recordFault_data : (s.recordFault r).data = s.data := rfl
@[simp] theorem recordFault_prescale : (s.recordFault r).prescale = s.prescale := rfl
@[simp] theorem recordFault_prescaleSet : (s.recordFault r).prescaleSet = s.prescaleSet := rfl
@[simp] theorem recordFault_own : (s.recordFault r).own = s.own := rfl
@[simp] theorem recordFault_inflight : (s.recordFault r).inflight = s.inflight := rfl
@[simp] theorem recordFault_hung : (s.recordFault r).hung = s.hung := rfl
@[simp] theorem recordFault_settled : (s.recordFault r).settled = s.settled := rfl
@[simp] theorem recordFault_history : (s.recordFault r).history = s.history := rfl
@[simp] theorem recordFault_faults : (s.recordFault r).faults = s.faults ++ [r] := rfl
@[simp] theorem recordFault_loaded : (s.recordFault r).loaded = s.loaded := rfl
@[simp] theorem recordFault_program : (s.recordFault r).program = s.program := rfl
@[simp] theorem recordFault_driver : (s.recordFault r).driver = s.driver := rfl
@[simp] theorem recordFault_results : (s.recordFault r).results = s.results := rfl
@[simp] theorem recordFault_memory : (s.recordFault r).memory = s.memory := rfl
@[simp] theorem recordFault_accesses : (s.recordFault r).accesses = s.accesses := rfl
@[simp] theorem recordFault_turn : (s.recordFault r).turn = s.turn := rfl
@[simp] theorem recordFault_ticks : (s.recordFault r).ticks = s.ticks := rfl
@[simp] theorem recordFault_draws : (s.recordFault r).draws = s.draws := rfl
end

section
variable (s : State)
@[simp] theorem startCondition_busy : (s.startCondition).busy = true := rfl
@[simp] theorem startCondition_done : (s.startCondition).done = s.done := rfl
@[simp] theorem startCondition_error : (s.startCondition).error = s.error := rfl
@[simp] theorem startCondition_arbLost : (s.startCondition).arbLost = s.arbLost := rfl
@[simp] theorem startCondition_ack : (s.startCondition).ack = s.ack := rfl
@[simp] theorem startCondition_data : (s.startCondition).data = s.data := rfl
@[simp] theorem startCondition_prescale : (s.startCondition).prescale = s.prescale := rfl
@[simp] theorem startCondition_prescaleSet : (s.startCondition).prescaleSet = s.prescaleSet := rfl
@[simp] theorem startCondition_own : (s.startCondition).own = true := rfl
@[simp] theorem startCondition_inflight : (s.startCondition).inflight = s.inflight := rfl
@[simp] theorem startCondition_hung : (s.startCondition).hung = s.hung := rfl
@[simp] theorem startCondition_settled : (s.startCondition).settled = s.settled := rfl
@[simp] theorem startCondition_history : (s.startCondition).history = s.history ++ [.start] := rfl
@[simp] theorem startCondition_faults : (s.startCondition).faults = s.faults := rfl
@[simp] theorem startCondition_loaded : (s.startCondition).loaded = s.loaded := rfl
@[simp] theorem startCondition_program : (s.startCondition).program = s.program := rfl
@[simp] theorem startCondition_driver : (s.startCondition).driver = s.driver := rfl
@[simp] theorem startCondition_results : (s.startCondition).results = s.results := rfl
@[simp] theorem startCondition_memory : (s.startCondition).memory = s.memory := rfl
@[simp] theorem startCondition_accesses : (s.startCondition).accesses = s.accesses := rfl
@[simp] theorem startCondition_turn : (s.startCondition).turn = s.turn := rfl
@[simp] theorem startCondition_ticks : (s.startCondition).ticks = s.ticks := rfl
@[simp] theorem startCondition_draws : (s.startCondition).draws = s.draws := rfl
end

section
variable (s : State) (d : Descriptor)
@[simp] theorem logAccess_busy : (s.logAccess d).busy = s.busy := rfl
@[simp] theorem logAccess_done : (s.logAccess d).done = s.done := rfl
@[simp] theorem logAccess_error : (s.logAccess d).error = s.error := rfl
@[simp] theorem logAccess_arbLost : (s.logAccess d).arbLost = s.arbLost := rfl
@[simp] theorem logAccess_ack : (s.logAccess d).ack = s.ack := rfl
@[simp] theorem logAccess_data : (s.logAccess d).data = s.data := rfl
@[simp] theorem logAccess_prescale : (s.logAccess d).prescale = s.prescale := rfl
@[simp] theorem logAccess_prescaleSet : (s.logAccess d).prescaleSet = s.prescaleSet := rfl
@[simp] theorem logAccess_own : (s.logAccess d).own = s.own := rfl
@[simp] theorem logAccess_inflight : (s.logAccess d).inflight = s.inflight := rfl
@[simp] theorem logAccess_hung : (s.logAccess d).hung = s.hung := rfl
@[simp] theorem logAccess_settled : (s.logAccess d).settled = s.settled := rfl
@[simp] theorem logAccess_history : (s.logAccess d).history = s.history := rfl
@[simp] theorem logAccess_faults : (s.logAccess d).faults = s.faults := rfl
@[simp] theorem logAccess_loaded : (s.logAccess d).loaded = s.loaded := rfl
@[simp] theorem logAccess_program : (s.logAccess d).program = s.program := rfl
@[simp] theorem logAccess_driver : (s.logAccess d).driver = s.driver := rfl
@[simp] theorem logAccess_results : (s.logAccess d).results = s.results := rfl
@[simp] theorem logAccess_memory : (s.logAccess d).memory = s.memory := rfl
@[simp] theorem logAccess_accesses : (s.logAccess d).accesses = s.accesses ++ [d] := rfl
@[simp] theorem logAccess_turn : (s.logAccess d).turn = s.turn := rfl
@[simp] theorem logAccess_ticks : (s.logAccess d).ticks = s.ticks := rfl
@[simp] theorem logAccess_draws : (s.logAccess d).draws = s.draws := rfl
end

section
variable (s : State)
@[simp] theorem chooseBy_busy (sched : Nat → Turn) : (s.chooseBy sched).busy = s.busy := rfl
@[simp] theorem chooseBy_done (sched : Nat → Turn) : (s.chooseBy sched).done = s.done := rfl
@[simp] theorem chooseBy_error (sched : Nat → Turn) : (s.chooseBy sched).error = s.error := rfl
@[simp] theorem chooseBy_arbLost (sched : Nat → Turn) : (s.chooseBy sched).arbLost = s.arbLost := rfl
@[simp] theorem chooseBy_ack (sched : Nat → Turn) : (s.chooseBy sched).ack = s.ack := rfl
@[simp] theorem chooseBy_data (sched : Nat → Turn) : (s.chooseBy sched).data = s.data := rfl
@[simp] theorem chooseBy_prescale (sched : Nat → Turn) : (s.chooseBy sched).prescale = s.prescale := rfl
@[simp] theorem chooseBy_prescaleSet (sched : Nat → Turn) : (s.chooseBy sched).prescaleSet = s.prescaleSet := rfl
@[simp] theorem chooseBy_own (sched : Nat → Turn) : (s.chooseBy sched).own = s.own := rfl
@[simp] theorem chooseBy_inflight (sched : Nat → Turn) : (s.chooseBy sched).inflight = s.inflight := rfl
@[simp] theorem chooseBy_hung (sched : Nat → Turn) : (s.chooseBy sched).hung = s.hung := rfl
@[simp] theorem chooseBy_settled (sched : Nat → Turn) : (s.chooseBy sched).settled = s.settled := rfl
@[simp] theorem chooseBy_history (sched : Nat → Turn) : (s.chooseBy sched).history = s.history := rfl
@[simp] theorem chooseBy_faults (sched : Nat → Turn) : (s.chooseBy sched).faults = s.faults := rfl
@[simp] theorem chooseBy_loaded (sched : Nat → Turn) : (s.chooseBy sched).loaded = s.loaded := rfl
@[simp] theorem chooseBy_program (sched : Nat → Turn) : (s.chooseBy sched).program = s.program := rfl
@[simp] theorem chooseBy_driver (sched : Nat → Turn) : (s.chooseBy sched).driver = s.driver := rfl
@[simp] theorem chooseBy_results (sched : Nat → Turn) : (s.chooseBy sched).results = s.results := rfl
@[simp] theorem chooseBy_memory (sched : Nat → Turn) : (s.chooseBy sched).memory = s.memory := rfl
@[simp] theorem chooseBy_accesses (sched : Nat → Turn) : (s.chooseBy sched).accesses = s.accesses := rfl
@[simp] theorem chooseBy_turn (sched : Nat → Turn) : (s.chooseBy sched).turn = sched s.ticks := rfl
@[simp] theorem chooseBy_ticks (sched : Nat → Turn) : (s.chooseBy sched).ticks = s.ticks + 1 := rfl
@[simp] theorem chooseBy_draws (sched : Nat → Turn) : (s.chooseBy sched).draws = s.draws := rfl
@[simp] theorem choose_busy : (s.choose).busy = s.busy := rfl
@[simp] theorem choose_done : (s.choose).done = s.done := rfl
@[simp] theorem choose_error : (s.choose).error = s.error := rfl
@[simp] theorem choose_arbLost : (s.choose).arbLost = s.arbLost := rfl
@[simp] theorem choose_ack : (s.choose).ack = s.ack := rfl
@[simp] theorem choose_data : (s.choose).data = s.data := rfl
@[simp] theorem choose_prescale : (s.choose).prescale = s.prescale := rfl
@[simp] theorem choose_prescaleSet : (s.choose).prescaleSet = s.prescaleSet := rfl
@[simp] theorem choose_own : (s.choose).own = s.own := rfl
@[simp] theorem choose_inflight : (s.choose).inflight = s.inflight := rfl
@[simp] theorem choose_hung : (s.choose).hung = s.hung := rfl
@[simp] theorem choose_settled : (s.choose).settled = s.settled := rfl
@[simp] theorem choose_history : (s.choose).history = s.history := rfl
@[simp] theorem choose_faults : (s.choose).faults = s.faults := rfl
@[simp] theorem choose_loaded : (s.choose).loaded = s.loaded := rfl
@[simp] theorem choose_program : (s.choose).program = s.program := rfl
@[simp] theorem choose_driver : (s.choose).driver = s.driver := rfl
@[simp] theorem choose_results : (s.choose).results = s.results := rfl
@[simp] theorem choose_memory : (s.choose).memory = s.memory := rfl
@[simp] theorem choose_accesses : (s.choose).accesses = s.accesses := rfl
@[simp] theorem choose_turn : (s.choose).turn = Config.schedule s.ticks := rfl
@[simp] theorem choose_ticks : (s.choose).ticks = s.ticks + 1 := rfl
@[simp] theorem choose_draws : (s.choose).draws = s.draws := rfl
end

section
variable (s : State)
@[simp] theorem releaseBus_busy : (releaseBus s).busy = false := rfl
@[simp] theorem releaseBus_done : (releaseBus s).done = s.done := rfl
@[simp] theorem releaseBus_error : (releaseBus s).error = s.error := rfl
@[simp] theorem releaseBus_arbLost : (releaseBus s).arbLost = s.arbLost := rfl
@[simp] theorem releaseBus_ack : (releaseBus s).ack = s.ack := rfl
@[simp] theorem releaseBus_data : (releaseBus s).data = s.data := rfl
@[simp] theorem releaseBus_prescale : (releaseBus s).prescale = s.prescale := rfl
@[simp] theorem releaseBus_prescaleSet : (releaseBus s).prescaleSet = s.prescaleSet := rfl
@[simp] theorem releaseBus_own : (releaseBus s).own = s.own := rfl
@[simp] theorem releaseBus_inflight : (releaseBus s).inflight = s.inflight := rfl
@[simp] theorem releaseBus_hung : (releaseBus s).hung = s.hung := rfl
@[simp] theorem releaseBus_settled : (releaseBus s).settled = s.settled := rfl
@[simp] theorem releaseBus_history : (releaseBus s).history = s.history := rfl
@[simp] theorem releaseBus_faults : (releaseBus s).faults = s.faults := rfl
@[simp] theorem releaseBus_loaded : (releaseBus s).loaded = s.loaded := rfl
@[simp] theorem releaseBus_program : (releaseBus s).program = s.program := rfl
@[simp] theorem releaseBus_driver : (releaseBus s).driver = s.driver := rfl
@[simp] theorem releaseBus_results : (releaseBus s).results = s.results := rfl
@[simp] theorem releaseBus_memory : (releaseBus s).memory = s.memory := rfl
@[simp] theorem releaseBus_accesses : (releaseBus s).accesses = s.accesses := rfl
@[simp] theorem releaseBus_turn : (releaseBus s).turn = s.turn := rfl
@[simp] theorem releaseBus_ticks : (releaseBus s).ticks = s.ticks := rfl
@[simp] theorem releaseBus_draws : (releaseBus s).draws = s.draws := rfl
end

section
variable (s : State)
@[simp] theorem hang_busy : (hang s).busy = s.busy := rfl
@[simp] theorem hang_done : (hang s).done = s.done := rfl
@[simp] theorem hang_error : (hang s).error = s.error := rfl
@[simp] theorem hang_arbLost : (hang s).arbLost = s.arbLost := rfl
@[simp] theorem hang_ack : (hang s).ack = s.ack := rfl
@[simp] theorem hang_data : (hang s).data = s.data := rfl
@[simp] theorem hang_prescale : (hang s).prescale = s.prescale := rfl
@[simp] theorem hang_prescaleSet : (hang s).prescaleSet = s.prescaleSet := rfl
@[simp] theorem hang_own : (hang s).own = s.own := rfl
@[simp] theorem hang_inflight : (hang s).inflight = s.inflight := rfl
@[simp] theorem hang_hung : (hang s).hung = true := rfl
@[simp] theorem hang_settled : (hang s).settled = s.settled := rfl
@[simp] theorem hang_history : (hang s).history = s.history := rfl
@[simp] theorem hang_faults : (hang s).faults = s.faults := rfl
@[simp] theorem hang_loaded : (hang s).loaded = s.loaded := rfl
@[simp] theorem hang_program : (hang s).program = s.program := rfl
@[simp] theorem hang_driver : (hang s).driver = s.driver := rfl
@[simp] theorem hang_results : (hang s).results = s.results := rfl
@[simp] theorem hang_memory : (hang s).memory = s.memory := rfl
@[simp] theorem hang_accesses : (hang s).accesses = s.accesses := rfl
@[simp] theorem hang_turn : (hang s).turn = s.turn := rfl
@[simp] theorem hang_ticks : (hang s).ticks = s.ticks := rfl
@[simp] theorem hang_draws : (hang s).draws = s.draws := rfl
end

section
variable (s : State)
@[simp] theorem settle_busy : (settle s).busy = s.busy := rfl
@[simp] theorem settle_done : (settle s).done = s.done := rfl
@[simp] theorem settle_error : (settle s).error = s.error := rfl
@[simp] theorem settle_arbLost : (settle s).arbLost = s.arbLost := rfl
@[simp] theorem settle_ack : (settle s).ack = s.ack := rfl
@[simp] theorem settle_data : (settle s).data = s.data := rfl
@[simp] theorem settle_prescale : (settle s).prescale = s.prescale := rfl
@[simp] theorem settle_prescaleSet : (settle s).prescaleSet = s.prescaleSet := rfl
@[simp] theorem settle_own : (settle s).own = s.own := rfl
@[simp] theorem settle_inflight : (settle s).inflight = s.inflight := rfl
@[simp] theorem settle_hung : (settle s).hung = s.hung := rfl
@[simp] theorem settle_settled : (settle s).settled = true := rfl
@[simp] theorem settle_history : (settle s).history = s.history := rfl
@[simp] theorem settle_faults : (settle s).faults = s.faults := rfl
@[simp] theorem settle_loaded : (settle s).loaded = s.loaded := rfl
@[simp] theorem settle_program : (settle s).program = s.program := rfl
@[simp] theorem settle_driver : (settle s).driver = s.driver := rfl
@[simp] theorem settle_results : (settle s).results = s.results := rfl
@[simp] theorem settle_memory : (settle s).memory = s.memory := rfl
@[simp] theorem settle_accesses : (settle s).accesses = s.accesses := rfl
@[simp] theorem settle_turn : (settle s).turn = s.turn := rfl
@[simp] theorem settle_ticks : (settle s).ticks = s.ticks := rfl
@[simp] theorem settle_draws : (settle s).draws = s.draws := rfl
end

end Sys2Proof.Machine
end

