-- ==== Sys2Proof/Laws/Memory.lean ====
section
/-! SUPPORT. Host RAM: read after write, and the canonical form every operation keeps (R85). -/

namespace Sys2Proof.Machine

/-- A read after a write: the byte written at its own address, every other address as before. -/
theorem Memory.read_write (m : List Host.Cell) (a : Nat) (b : Byte) (x : Nat) :
    Memory.read (Memory.write m a b) x = if x = a then some b else Memory.read m x := by
  induction m with
  | nil => simp only [Memory.write, Memory.read, eq_comm]
  | cons c m ih =>
    obtain ⟨k, v⟩ := c
    simp only [Memory.write]
    by_cases h1 : a < k
    · simp only [h1, if_true, Memory.read, eq_comm]
    · by_cases h2 : a = k
      · subst h2
        simp only [Nat.lt_irrefl, if_false, if_true, Memory.read]
        by_cases h : a = x
        · simp [h]
        · simp [h, show ¬ x = a from fun e => h e.symm]
      · simp only [h1, h2, if_false, Memory.read, ih]
        by_cases h : k = x
        · subst h; simp [show ¬ k = a from fun e => h2 e.symm]
        · simp [h]

theorem Memory.all_write (m : List Host.Cell) (a : Nat) (b : Byte) (k : Nat)
    (h : m.all (fun c => decide (k < c.1)) = true) (ha : k < a) :
    (Memory.write m a b).all (fun c => decide (k < c.1)) = true := by
  induction m with
  | nil => simp [Memory.write, ha]
  | cons c m ih =>
    obtain ⟨l, v⟩ := c
    simp only [List.all_cons, Bool.and_eq_true, decide_eq_true_eq] at h
    simp only [Memory.write]
    split
    · simp only [List.all_cons, Bool.and_eq_true, decide_eq_true_eq]; exact ⟨ha, h⟩
    · split
      · simp only [List.all_cons, Bool.and_eq_true, decide_eq_true_eq]; exact ⟨ha, h.2⟩
      · simp only [List.all_cons, Bool.and_eq_true, decide_eq_true_eq]; exact ⟨h.1, ih h.2⟩

theorem Memory.wf_write (m : List Host.Cell) (a : Nat) (b : Byte) (h : Memory.wf m = true) :
    Memory.wf (Memory.write m a b) = true := by
  induction m with
  | nil => rfl
  | cons c m ih =>
    obtain ⟨k, v⟩ := c
    simp only [Memory.wf, Bool.and_eq_true] at h
    simp only [Memory.write]
    split
    · rename_i hlt
      have : m.all (fun c => decide (a < c.1)) = true := by
        rw [List.all_eq_true] at h ⊢
        intro c hc
        have := h.1 c hc
        simp only [decide_eq_true_eq] at this ⊢
        omega
      simp [Memory.wf, hlt, h, this]
    · split
      · rename_i hnlt heq
        subst heq
        simp [Memory.wf, h]
      · simp only [Memory.wf, Bool.and_eq_true]
        exact ⟨Memory.all_write m a b k h.1 (by omega), ih h.2⟩

theorem wf_ramStore (n a : Nat) (v : Word) (m : List Host.Cell) (h : Memory.wf m = true) :
    Memory.wf (ramStore n a v m) = true := by
  induction n generalizing a v m with
  | zero => exact h
  | succ n ih => exact ih _ _ _ (Memory.wf_write m a _ h)

/-- A store leaves every byte outside the stored ones. -/
theorem read_ramStore_outside (n a : Nat) (v : Word) (m : List Host.Cell) (x : Nat) (h : x < a ∨ a + n ≤ x) :
    Memory.read (ramStore n a v m) x = Memory.read m x := by
  induction n generalizing a v m with
  | zero => rfl
  | succ n ih =>
    rw [ramStore, ih _ _ _ (by omega), Memory.read_write, if_neg (by omega)]

/-- A load changes nothing but the count of draws. -/
theorem ramByte_state (a : Nat) (s : State) : ∃ n, (ramByte a s).2 = s.drew n := by
  unfold ramByte
  split
  · exact ⟨0, rfl⟩
  · exact ⟨1, rfl⟩

theorem drew_drew (s : State) (m n : Nat) : (s.drew m).drew n = s.drew (m + n) := by
  simp [State.drew, Nat.add_assoc]

theorem ramLoad_state (n a : Nat) (s : State) : ∃ k, (ramLoad n a s).2 = s.drew k := by
  induction n generalizing a s with
  | zero => exact ⟨0, rfl⟩
  | succ n ih =>
    obtain ⟨k, hk⟩ := ramByte_state a s
    obtain ⟨l, hl⟩ := ih (a + 1) (ramByte a s).2
    exact ⟨k + l, by simp only [ramLoad, hl]; rw [hk, drew_drew]⟩

/-- What a RAM access can do when it answers a next state. -/
theorem ramAccess_cases {a : HostAccess} {s t : State} (h : ramAccess a s = .next t) :
    a.addr + a.size.bytes ≤ Config.addressSpace ∧
      ((a.write = true ∧ t = { s with memory := ramStore a.size.bytes a.addr a.wdata s.memory }) ∨
       (a.write = false ∧ ∃ v n, t = (s.drew n).load v)) := by
  unfold ramAccess at h
  split at h
  · cases h
  · rename_i hsp
    refine ⟨by omega, ?_⟩
    split at h
    · rename_i hw
      exact .inl ⟨hw, by simpa using h.symm⟩
    · rename_i hw
      obtain ⟨n, hn⟩ := ramLoad_state a.size.bytes a.addr s
      rw [hn] at h
      exact .inr ⟨by simpa using hw, _, n, by simpa using h.symm⟩

end Sys2Proof.Machine
end

