-- ==== Sys2Proof/Laws/Driver.lean ====
section
/-! SUPPORT. Where `write_byte` puts its byte, and what entering a call does to the state (R219 to R224). -/

namespace Sys2Proof.Machine

/-- The window lies in the host address space, and a base that is not 0 leaves room below it. -/
theorem i2cBase_cases : Config.i2cBase = 0 ∨ 4 ≤ Config.i2cBase := by
  unfold Config.i2cBase
  omega

/-- `&byte` is not null, and lies in host RAM, whatever address is drawn (R222). -/
theorem byteAddress_ram (w : Word) : byteAddress w ≠ 0#32 ∧ ValidBuffer (byteAddress w).toNat 1 := by
  have hsize : Config.windowSize = 16 := rfl
  have hspace : Config.addressSpace = 2 ^ 32 := rfl
  have hw := w.isLt
  unfold byteAddress ValidBuffer
  split
  · rename_i h
    exact ⟨h.1, by omega, by omega⟩
  · split
    · exact ⟨by decide, by decide, .inr (by simp only [BitVec.reduceToNat]; omega)⟩
    · have := i2cBase_cases
      exact ⟨by decide, by decide, .inl (by simp only [BitVec.reduceToNat]; omega)⟩

/-- `write_byte` passes the guard of `write`: its buffer is not null and its length is 1 (R222). -/
theorem enterWrite_byteAddress (addr : DeviceAddr) (w : Word) :
    enterWrite addr (byteAddress w) 1#32 = .inr (.start (.write addr (byteAddress w) 1#32) .waitFree) := by
  simp [enterWrite, badArgument, (byteAddress_ram w).1]

/-- Only `write_byte` touches host RAM on entry, and it writes its byte alone (R222). -/
theorem placeArgument_memory (slot : Word) (c : Call) (s : State) :
    (c.placeArgument slot s).memory =
      match c with
      | .writeByte _ byte => Memory.write s.memory slot.toNat byte
      | _ => s.memory := by
  cases c <;> rfl

/-- The other fields of the host's side are as they were. -/
theorem placeArgument_host (slot : Word) (c : Call) (s : State) :
    (c.placeArgument slot s).program = s.program ∧ (c.placeArgument slot s).driver = s.driver ∧
      (c.placeArgument slot s).results = s.results ∧ (c.placeArgument slot s).accesses = s.accesses ∧
      (c.placeArgument slot s).loaded = s.loaded := by
  cases c <;> exact ⟨rfl, rfl, rfl, rfl, rfl⟩

/-- Entering a call keeps host RAM in its canonical form. -/
theorem wf_beginCall (c : Call) (s : State) (h : Memory.wf s.memory = true) :
    Memory.wf (beginCall c s).memory = true := by
  have hp : ∀ slot, Memory.wf (c.placeArgument slot s).memory = true := by
    intro slot
    rw [placeArgument_memory]
    split
    · exact Memory.wf_write _ _ _ h
    · exact h
  unfold beginCall
  dsimp only
  split <;> exact hp _

end Sys2Proof.Machine
end

