-- ==== Sys2Proof/Laws/Encoding.lean ====
section
/-! SUPPORT. The fields of a descriptor and of a CTRL word, and what the decoder reads from the encoder's parts. -/

namespace Sys2Proof

/-- The bits of a descriptor: WDATA, then OFF, then W (R100). -/
theorem getLsbD_descriptor (w : Bool) (off : Nat) (v : Word) (i : Nat) :
    (descriptor w off v).getLsbD i =
      if i < 32 then v.getLsbD i
      else if i < 39 then (BitVec.ofNat 7 off).getLsbD (i - 32)
      else (i == 39 && w) := by
  simp only [descriptor, BitVec.getLsbD_append, BitVec.getLsbD_ofBool]
  by_cases h : i < 32
  · rw [if_pos (show i < 7 + 32 by omega), if_pos h, if_pos h]
  · by_cases h' : i < 39
    · rw [if_pos (show i < 7 + 32 by omega), if_neg h, if_neg h, if_pos h']
    · rw [if_neg (show ¬ i < 7 + 32 by omega), if_neg h, if_neg h']
      by_cases h39 : i = 39
      · simp [h39]
      · simp [h39, show ¬ i - (7 + 32) = 0 by omega]

@[simp] theorem wdataOf_descriptor (w : Bool) (off : Nat) (v : Word) : wdataOf (descriptor w off v) = v := by
  apply BitVec.eq_of_getLsbD_eq
  intro i hi
  simp [wdataOf, getLsbD_descriptor, hi]

@[simp] theorem isWrite_descriptor (w : Bool) (off : Nat) (v : Word) : isWrite (descriptor w off v) = w := by
  simp only [isWrite, getLsbD_descriptor]
  simp

theorem offset_bits_descriptor (w : Bool) (off : Nat) (v : Word) :
    (descriptor w off v).extractLsb' 32 7 = BitVec.ofNat 7 off := by
  apply BitVec.eq_of_getLsbD_eq
  intro i hi
  simp [getLsbD_descriptor, hi, show 32 + i < 39 by omega]

theorem offsetOf_descriptor (w : Bool) (off : Nat) (v : Word) (h : off < 128) :
    offsetOf (descriptor w off v) = off := by
  simp [offsetOf, offset_bits_descriptor, BitVec.toNat_ofNat, Nat.mod_eq_of_lt h]

/-- A descriptor is determined by its three fields. -/
theorem descriptor_fields (d : Descriptor) : descriptor (isWrite d) (offsetOf d) (wdataOf d) = d := by
  apply BitVec.eq_of_getLsbD_eq
  intro i hi
  simp only [getLsbD_descriptor, wdataOf, isWrite, offsetOf, BitVec.ofNat_toNat, BitVec.setWidth_eq,
    BitVec.getLsbD_extractLsb']
  by_cases h : i < 32
  · simp [h]
  · by_cases h' : i < 39
    · simp [h, h', show i - 32 < 7 by omega, show 32 + (i - 32) = i by omega]
    · simp [show i = 39 by omega]

/-! The decoder on an access of each register. -/

@[simp] theorem decode_ctrl (w : Bool) (v : Word) :
    decode (descriptor w Config.offCtrl v) = .ok (if w then decodeCtrlWrite v else .ctrlRead) := by
  simp [decode, offsetOf_descriptor, Config.offCtrl]

@[simp] theorem decode_status (w : Bool) (v : Word) :
    decode (descriptor w Config.offStatus v) = .ok (if w then .statusWrite v else .statusRead) := by
  simp [decode, offsetOf_descriptor, Config.offCtrl, Config.offStatus]

@[simp] theorem decode_data (w : Bool) (v : Word) :
    decode (descriptor w Config.offData v) = .ok (if w then decodeDataWrite v else .dataRead) := by
  simp [decode, offsetOf_descriptor, Config.offCtrl, Config.offStatus, Config.offData]

@[simp] theorem decode_prescale (w : Bool) (v : Word) :
    decode (descriptor w Config.offPrescale v) = .ok (if w then .prescaleWrite v else .prescaleRead) := by
  simp [decode, offsetOf_descriptor, Config.offCtrl, Config.offStatus, Config.offData, Config.offPrescale]

/-- The decoder on a CTRL word made of its flags: the table of R108. -/
theorem decodeCtrlWrite_ctrlWord : ∀ start stop read ackEn : Bool,
    decodeCtrlWrite (ctrlWord start stop read ackEn) =
      if stop && start then .ctrlRsvStopStart read ackEn
      else if stop && read then .ctrlRsvStopRead ackEn
      else if read && ackEn then .ctrlRdbyteAck start
      else if read then .ctrlRdbyteNack start
      else if stop then .ctrlStop ackEn
      else if start then .ctrlWrbyte ackEn
      else .ctrlNop ackEn := by
  decide

theorem decodeDataWrite_byte (b : Byte) : decodeDataWrite (b.setWidth 32) = .dataWrite b := by
  have h : dataReserved (b.setWidth 32) = 0#24 := by
    apply BitVec.eq_of_getLsbD_eq
    intro i hi
    simp only [dataReserved, BitVec.getLsbD_extractLsb', BitVec.getLsbD_setWidth]
    simp
  have h' : (b.setWidth 32).extractLsb' 0 8 = b := by
    apply BitVec.eq_of_getLsbD_eq
    intro i hi
    simp [BitVec.getLsbD_setWidth, hi]
    omega
  simp [decodeDataWrite, h, h']

end Sys2Proof
end

