-- ==== Sys2Proof/Laws/Flags.lean ====
section
/-! SUPPORT. What the driver's tests say of the STATUS word a read delivers (R103, R213 to R215). -/

namespace Sys2Proof.Machine

/-- A one-bit word, bit by bit. -/
theorem getLsbD_flagAt (b : Bool) (pos i : Nat) (h : pos < 32) : (flagAt b pos).getLsbD i = (i == pos && b) := by
  by_cases hi : i < 32
  · by_cases e : i = pos
    · subst e; simp [flagAt, hi]
    · by_cases l : i < pos
      · simp [flagAt, hi, l, e]
      · have : i - pos ≠ 0 := by omega
        simp [flagAt, hi, l, e, this]
  · have : ¬ i = pos := by omega
    simp [this, BitVec.getLsbD_of_ge _ i (by omega : 32 ≤ i)]

theorem getLsbD_reserved (u : BitVec 27) (i : Nat) (h : i < 5) : (u.setWidth 32 <<< 5).getLsbD i = false := by
  simp [h]

section
variable (u : BitVec 27) (s : State)

@[simp] theorem statusWord_busy : (statusWord u s).getLsbD Config.statusBusyBit = s.busy := by
  simp only [statusWord, BitVec.getLsbD_or, getLsbD_flagAt, Config.statusBusyBit, Config.statusDoneBit,
    Config.statusErrorBit, Config.statusArbLostBit, Config.statusAckBit, Nat.reduceLT, getLsbD_reserved]
  simp

@[simp] theorem statusWord_done : (statusWord u s).getLsbD Config.statusDoneBit = s.done := by
  simp only [statusWord, BitVec.getLsbD_or, getLsbD_flagAt, Config.statusBusyBit, Config.statusDoneBit,
    Config.statusErrorBit, Config.statusArbLostBit, Config.statusAckBit, Nat.reduceLT, getLsbD_reserved]
  simp

@[simp] theorem statusWord_error : (statusWord u s).getLsbD Config.statusErrorBit = s.error := by
  simp only [statusWord, BitVec.getLsbD_or, getLsbD_flagAt, Config.statusBusyBit, Config.statusDoneBit,
    Config.statusErrorBit, Config.statusArbLostBit, Config.statusAckBit, Nat.reduceLT, getLsbD_reserved]
  simp

@[simp] theorem statusWord_arbLost : (statusWord u s).getLsbD Config.statusArbLostBit = s.arbLost := by
  simp only [statusWord, BitVec.getLsbD_or, getLsbD_flagAt, Config.statusBusyBit, Config.statusDoneBit,
    Config.statusErrorBit, Config.statusArbLostBit, Config.statusAckBit, Nat.reduceLT, getLsbD_reserved]
  simp

@[simp] theorem statusWord_ack : (statusWord u s).getLsbD Config.statusAckBit = s.ack := by
  simp only [statusWord, BitVec.getLsbD_or, getLsbD_flagAt, Config.statusBusyBit, Config.statusDoneBit,
    Config.statusErrorBit, Config.statusArbLostBit, Config.statusAckBit, Nat.reduceLT, getLsbD_reserved]
  simp

end

/-- A mask of one bit keeps that bit alone. -/
theorem and_flagAt (v : Word) (pos : Nat) (h : pos < 32) : v &&& flagAt true pos = flagAt (v.getLsbD pos) pos := by
  apply BitVec.eq_of_getLsbD_eq
  intro i _
  rw [BitVec.getLsbD_and, getLsbD_flagAt _ _ _ h, getLsbD_flagAt _ _ _ h]
  by_cases e : i = pos
  · subst e; simp
  · rw [show (i == pos) = false by simpa using e]; simp

theorem flagAt_eq_zero (b : Bool) (pos : Nat) (h : pos < 32) : flagAt b pos = 0#32 ↔ b = false := by
  constructor
  · intro e
    have := congrArg (fun v => v.getLsbD pos) e
    simpa [getLsbD_flagAt _ _ _ h] using this
  · rintro rfl
    simp [flagAt]

/-- A flag test with a one-bit mask reads that bit. -/
theorem anySet_flagAt (v : Word) (pos : Nat) (h : pos < 32) : anySet v (flagAt true pos) = v.getLsbD pos := by
  rw [anySet, and_flagAt v pos h]
  cases hv : v.getLsbD pos
  · simp [flagAt]
  · have : flagAt true pos ≠ 0#32 := fun e => by simp [flagAt_eq_zero _ _ h] at e
    simp [this]

@[simp] theorem sawFree_statusWord (u : BitVec 27) (s : State) : sawFree (statusWord u s) = !s.busy := by
  rw [sawFree, stBusy, anySet_flagAt _ _ (by decide), statusWord_busy]

@[simp] theorem sawDone_statusWord (u : BitVec 27) (s : State) : sawDone (statusWord u s) = s.done := by
  rw [sawDone, stDone, and_flagAt _ _ (by decide), statusWord_done]
  generalize s.done = b
  cases b <;> decide

/-- `classify` on the STATUS word of a state, by its flags (R215). -/
theorem classify_statusWord (u : BitVec 27) (s : State) :
    classify (statusWord u s) =
      if s.arbLost then .arbLost else if s.error then .error else if !s.ack then .nack else .ok := by
  have arb := (anySet_flagAt (statusWord u s) Config.statusArbLostBit (by decide)).trans (statusWord_arbLost u s)
  have err := (anySet_flagAt (statusWord u s) Config.statusErrorBit (by decide)).trans (statusWord_error u s)
  have ack := (anySet_flagAt (statusWord u s) Config.statusAckBit (by decide)).trans (statusWord_ack u s)
  simp only [classify, stArbLost, stError, stAck, arb, err, ack]

/-- `d[7:0]` of a DATA word is the byte (R104). -/
@[simp] theorem lowByte_dataWord (u : BitVec 24) (b : Byte) : lowByte (dataWord u b) = b := by
  apply BitVec.eq_of_getLsbD_eq
  intro i hi
  simp only [lowByte, dataWord, BitVec.getLsbD_setWidth, BitVec.getLsbD_append]
  simp [hi]

end Sys2Proof.Machine
end

