-- ==== Sys2Proof/Laws/Ops.lean ====
section
/-! SUPPORT. What the shared operations can do: faults and checks (R142, R267, R268), the meanings (R144 to R159) and
the admission of an access (R72). -/

namespace Sys2Proof.Machine

@[simp] theorem firstFault_cons_true (r : FaultReason) (l) : firstFault ((true, r) :: l) = some r := rfl
@[simp] theorem firstFault_cons_false (r : FaultReason) (l) : firstFault ((false, r) :: l) = firstFault l := rfl
@[simp] theorem firstFault_nil : firstFault [] = none := rfl

theorem firstFault_eq_none {l : List (Bool × FaultReason)} : firstFault l = none ↔ ∀ c ∈ l, c.1 = false := by
  induction l with
  | nil => simp
  | cons c l ih =>
    obtain ⟨b, r⟩ := c
    cases b <;> simp [ih]

/-- An access under checks records the first failing one, and nothing else, or else has its effect. -/
theorem guarded_cases {l : List (Bool × FaultReason)} {s s' t : State} (h : guarded l s s' = .next t) :
    (∃ r, firstFault l = some r ∧ t = s.recordFault r) ∨ (firstFault l = none ∧ t = s') := by
  unfold guarded at h
  split at h
  · rename_i r hr
    exact .inl ⟨r, hr, by simpa [raiseFault] using h.symm⟩
  · rename_i hn
    exact .inr ⟨hn, by simpa using h.symm⟩

/-- An access whose checks all pass has its effect. -/
theorem guarded_pass {l : List (Bool × FaultReason)} (s s' : State) (h : firstFault l = none) :
    guarded l s s' = .next s' := by
  simp [guarded, h]

/-- An access with a failing check records the first. -/
theorem guarded_fail {l : List (Bool × FaultReason)} {r : FaultReason} (s s' : State) (h : firstFault l = some r) :
    guarded l s s' = .next (s.recordFault r) := by
  simp [guarded, h, raiseFault]

/-- `checkCommand()` passes (R142). -/
theorem commandChecks_pass (s : State) :
    firstFault (commandChecks s) = none ↔ s.inflight = none ∧ Configured s := by
  rw [firstFault_eq_none]
  simp [commandChecks, Configured, and_assoc]

/-- The checks of CTRL.WRBYTE pass (R145). -/
theorem wrByteChecks_pass (s : State) :
    firstFault (wrByteChecks s) = none ↔
      s.inflight = none ∧ Configured s ∧ s.data.isSome = true ∧ (s.own = true ∨ s.busy = false) := by
  rw [firstFault_eq_none]
  simp only [wrByteChecks, commandChecks, Configured]
  cases s.own <;> cases s.busy <;> cases s.data <;> simp [and_assoc]

/-- The checks of a read command pass (R146, R147). -/
theorem rdByteChecks_pass (s : State) :
    firstFault (rdByteChecks s) = none ↔ s.inflight = none ∧ Configured s ∧ s.own = true := by
  rw [firstFault_eq_none]
  simp [rdByteChecks, commandChecks, Configured, and_assoc]

/-- The check of PRESCALE.WRITE passes (R158). -/
theorem prescaleChecks_pass (s : State) :
    firstFault (prescaleChecks s) = none ↔ s.inflight = none ∧ s.own = false := by
  rw [firstFault_eq_none]
  simp [prescaleChecks]

/-- Everything an access can do: record one reason and nothing else, or have the effect of its row. -/
inductive ExecEffect (s : State) : Instr → State → Prop where
  | fault (i : Instr) (r : FaultReason) : ExecEffect s i (s.recordFault r)
  | nop (a : Bool) : ExecEffect s (.ctrlNop a) s
  | sendStart (a : Bool) (hin : s.inflight = none) (hc : Configured s) (hd : s.data.isSome = true) (ho : s.own = false)
      (hb : s.busy = false) : ExecEffect s (.ctrlWrbyte a) (s.startCondition.issue (.wrByte true))
  | sendNext (a : Bool) (hin : s.inflight = none) (hc : Configured s) (hd : s.data.isSome = true) (ho : s.own = true) :
      ExecEffect s (.ctrlWrbyte a) (s.issue (.wrByte false))
  | readAck (a : Bool) (hin : s.inflight = none) (hc : Configured s) (ho : s.own = true) :
      ExecEffect s (.ctrlRdbyteAck a) (s.issue (.rdByte true))
  | readNack (a : Bool) (hin : s.inflight = none) (hc : Configured s) (ho : s.own = true) :
      ExecEffect s (.ctrlRdbyteNack a) (s.issue (.rdByte false))
  | stop (a : Bool) (hin : s.inflight = none) (hc : Configured s) : ExecEffect s (.ctrlStop a) (s.issue .stop)
  | read (i : Instr) (v : Word) (hi : i = .ctrlRead ∨ i = .statusRead ∨ i = .dataRead ∨ i = .prescaleRead) :
      ExecEffect s i ((s.load v).drew 1)
  | dataWrite (b : Byte) (hin : s.inflight = none) : ExecEffect s (.dataWrite b) { s with data := some b }
  | prescaleWrite (v : Word) (hin : s.inflight = none) (ho : s.own = false) :
      ExecEffect s (.prescaleWrite v) { s with prescale := v, prescaleSet := true, settled := false }

/-- The inversion of `exec`. -/
theorem exec_effect {i : Instr} {s t : State} (h : exec i s = .next t) : ExecEffect s i t := by
  cases i with
  | ctrlNop a => cases h; exact .nop a
  | ctrlWrbyte a =>
    obtain ⟨r, -, rfl⟩ | ⟨hp, rfl⟩ := guarded_cases h
    · exact .fault _ r
    · obtain ⟨hin, hc, hd, ho⟩ := (wrByteChecks_pass s).1 hp
      cases hs : s.own
      · exact .sendStart a hin hc hd hs (by simpa [hs] using ho)
      · exact .sendNext a hin hc hd hs
  | ctrlStop a =>
    obtain ⟨r, -, rfl⟩ | ⟨hp, rfl⟩ := guarded_cases h
    · exact .fault _ r
    · exact .stop a ((commandChecks_pass s).1 hp).1 ((commandChecks_pass s).1 hp).2
  | ctrlRdbyteAck a =>
    obtain ⟨r, -, rfl⟩ | ⟨hp, rfl⟩ := guarded_cases h
    · exact .fault _ r
    · obtain ⟨hin, hc, ho⟩ := (rdByteChecks_pass s).1 hp
      exact .readAck a hin hc ho
  | ctrlRdbyteNack a =>
    obtain ⟨r, -, rfl⟩ | ⟨hp, rfl⟩ := guarded_cases h
    · exact .fault _ r
    · obtain ⟨hin, hc, ho⟩ := (rdByteChecks_pass s).1 hp
      exact .readNack a hin hc ho
  | ctrlRsvStopStart r a => cases h; exact .fault _ _
  | ctrlRsvStopRead a => cases h; exact .fault _ _
  | ctrlRsvBits v => cases h; exact .fault _ _
  | ctrlRead => cases h; exact .read _ _ (by simp)
  | statusRead => cases h; exact .read _ _ (by simp)
  | statusWrite v => cases h; exact .fault _ _
  | dataWrite b =>
    obtain ⟨r, -, rfl⟩ | ⟨hp, rfl⟩ := guarded_cases h
    · exact .fault _ r
    · exact .dataWrite b (by simpa [firstFault_eq_none] using hp)
  | dataWriteRsv v => cases h; exact .fault _ _
  | dataRead =>
    simp only [exec, execDataRead] at h
    split at h
    · cases h; exact .read _ _ (by simp)
    · split at h
      · cases h; exact .fault _ _
      · cases h; exact .read _ _ (by simp)
  | prescaleWrite v =>
    obtain ⟨r, -, rfl⟩ | ⟨hp, rfl⟩ := guarded_cases h
    · exact .fault _ r
    · exact .prescaleWrite v ((prescaleChecks_pass s).1 hp).1 ((prescaleChecks_pass s).1 hp).2
  | prescaleRead => cases h; exact .read _ _ (by simp)

/-- Every access answers a next state: a fault is recorded in it (log 1). -/
theorem exec_next (i : Instr) (s : State) : ∃ t, exec i s = .next t := by
  cases i <;>
    simp only [exec, execCtrlNop, execCtrlWrbyte, execCtrlStop, execCtrlRdbyteAck, execCtrlRdbyteNack,
      execCtrlRsvStopStart, execCtrlRsvStopRead, execCtrlRsvBits, execCtrlRead, execStatusRead, execStatusWrite,
      execDataWrite, execDataWriteRsv, execDataRead, execPrescaleWrite, execPrescaleRead, guarded, raiseFault]
  all_goals first
    | exact ⟨_, rfl⟩
    | (split <;> first | exact ⟨_, rfl⟩ | (split <;> exact ⟨_, rfl⟩))

/-- A one-byte access outside the window is a RAM access (R72, R85). -/
theorem admit_byte_outside (base : Nat) (a : HostAccess) (hs : a.size = .byte)
    (h : a.addr + 1 ≤ base ∨ base + Config.windowSize ≤ a.addr) : admission base a = .ram := by
  have hw : Config.windowSize = 16 := rfl
  simp only [admission, hs, AccessSize.bytes]
  rw [if_neg (by omega), if_neg (by omega)]

end Sys2Proof.Machine
end

