-- ==== Sys2Proof/Laws/PerInstr.lean ====
section
/-! SUPPORT. Facts about each instruction as syntax, one lemma per constructor: a well-formed instruction's descriptor
is `{W, OFF, WDATA}` for the direction and the register of its row, so that its top byte is one of the eight of R100. -/

namespace Sys2Proof

/-- The row is a register write (R100, R115). -/
def Instr.writes : Instr → Bool
  | .ctrlRead => false
  | .statusRead => false
  | .dataRead => false
  | .prescaleRead => false
  | .ctrlNop _ => true
  | .ctrlWrbyte _ => true
  | .ctrlStop _ => true
  | .ctrlRdbyteAck _ => true
  | .ctrlRdbyteNack _ => true
  | .ctrlRsvStopStart _ _ => true
  | .ctrlRsvStopRead _ => true
  | .ctrlRsvBits _ => true
  | .statusWrite _ => true
  | .dataWrite _ => true
  | .dataWriteRsv _ => true
  | .prescaleWrite _ => true

/-- The register the row accesses (R70, R115). -/
def Instr.register : Instr → Nat
  | .statusRead => Config.offStatus
  | .statusWrite _ => Config.offStatus
  | .dataWrite _ => Config.offData
  | .dataWriteRsv _ => Config.offData
  | .dataRead => Config.offData
  | .prescaleWrite _ => Config.offPrescale
  | .prescaleRead => Config.offPrescale
  | .ctrlNop _ => Config.offCtrl
  | .ctrlWrbyte _ => Config.offCtrl
  | .ctrlStop _ => Config.offCtrl
  | .ctrlRdbyteAck _ => Config.offCtrl
  | .ctrlRdbyteNack _ => Config.offCtrl
  | .ctrlRsvStopStart _ _ => Config.offCtrl
  | .ctrlRsvStopRead _ => Config.offCtrl
  | .ctrlRsvBits _ => Config.offCtrl
  | .ctrlRead => Config.offCtrl

end Sys2Proof

namespace Sys2Proof.Laws.Fields

/-- The descriptor of `i` has the direction and the offset of its row. -/
def Statement (i : Instr) : Prop := isWrite (encode i) = i.writes ∧ offsetOf (encode i) = i.register

theorem fields (w : Bool) (off : Nat) (v : Word) (h : off < 128) :
    isWrite (descriptor w off v) = w ∧ offsetOf (descriptor w off v) = off :=
  ⟨isWrite_descriptor w off v, offsetOf_descriptor w off v h⟩

theorem ctrlNop (ackEn : Bool) : Statement (.ctrlNop ackEn) := fields _ _ _ (by decide)
theorem ctrlWrbyte (ackEn : Bool) : Statement (.ctrlWrbyte ackEn) := fields _ _ _ (by decide)
theorem ctrlStop (ackEn : Bool) : Statement (.ctrlStop ackEn) := fields _ _ _ (by decide)
theorem ctrlRdbyteAck (start : Bool) : Statement (.ctrlRdbyteAck start) := fields _ _ _ (by decide)
theorem ctrlRdbyteNack (start : Bool) : Statement (.ctrlRdbyteNack start) := fields _ _ _ (by decide)
theorem ctrlRsvStopStart (read ackEn : Bool) : Statement (.ctrlRsvStopStart read ackEn) := fields _ _ _ (by decide)
theorem ctrlRsvStopRead (ackEn : Bool) : Statement (.ctrlRsvStopRead ackEn) := fields _ _ _ (by decide)
theorem ctrlRsvBits (v : Word) : Statement (.ctrlRsvBits v) := fields _ _ _ (by decide)
theorem ctrlRead : Statement .ctrlRead := fields _ _ _ (by decide)
theorem statusRead : Statement .statusRead := fields _ _ _ (by decide)
theorem statusWrite (v : Word) : Statement (.statusWrite v) := fields _ _ _ (by decide)
theorem dataWrite (b : Byte) : Statement (.dataWrite b) := fields _ _ _ (by decide)
theorem dataWriteRsv (v : Word) : Statement (.dataWriteRsv v) := fields _ _ _ (by decide)
theorem dataRead : Statement .dataRead := fields _ _ _ (by decide)
theorem prescaleWrite (v : Word) : Statement (.prescaleWrite v) := fields _ _ _ (by decide)
theorem prescaleRead : Statement .prescaleRead := fields _ _ _ (by decide)

end Sys2Proof.Laws.Fields
end

