-- ==== Sys2Proof/Laws/Step.lean ====
section
/-! SUPPORT. What one step can do, said once: the inversion of the step, of a window access, of the host's turn and of
the controller's, for the invariants to cite. -/

namespace Sys2Proof.Machine

theorem Result.map_next {f : State → State} {r : Result} {t : State} (h : Result.map f r = .next t) :
    ∃ s, r = .next s ∧ t = f s := by
  cases r with
  | next s => exact ⟨s, rfl, by simpa [Result.map] using h.symm⟩
  | fault r => cases h
  | refused r => cases h

@[simp] theorem Result.map_of_next (f : State → State) (s : State) : Result.map f (.next s) = .next (f s) := rfl

/-- A step is one turn of the agent whose turn it is, from a state with no fault recorded. -/
theorem stepBy_next {sched : Nat → Turn} {s t : State} (h : stepBy sched s = .next t) :
    s.faults = [] ∧ ∃ u, agentTurn s.turn s = .next u ∧ t = u.chooseBy sched := by
  unfold stepBy at h
  split at h
  · cases h
  · rename_i hf
    obtain ⟨u, hu, rfl⟩ := Result.map_next h
    exact ⟨hf, u, hu, rfl⟩

theorem step_next {s t : State} (h : step s = .next t) :
    s.faults = [] ∧ ∃ u, agentTurn s.turn s = .next u ∧ t = u.choose := stepBy_next h

theorem stepBy_of_turn {s u : State} (sched : Nat → Turn) (hf : s.faults = []) (h : agentTurn s.turn s = .next u) :
    stepBy sched s = .next (u.chooseBy sched) := by
  simp [stepBy, hf, h]

theorem step_of_turn {s u : State} (hf : s.faults = []) (h : agentTurn s.turn s = .next u) :
    step s = .next u.choose := stepBy_of_turn Config.schedule hf h

/-- A hold changes nothing. -/
theorem hold_next {s t : State} (h : hold s = .next t) : t = s := by
  unfold hold at h
  split at h
  · simpa using h.symm
  · cases h

/-- Everything a window access can do. -/
theorem registerAccess_next {d : Descriptor} {s t : State} (h : registerAccess d s = .next t) :
    ∃ i u, decode d = .ok i ∧ exec i s = .next u ∧ t = hostAdvance (u.logAccess d) := by
  unfold registerAccess at h
  split at h
  · rename_i i hi
    obtain ⟨u, hu, rfl⟩ := Result.map_next h
    exact ⟨i, u, hi, hu, rfl⟩
  · cases h

theorem registerAccess_of {d : Descriptor} {i : Instr} {s u : State} (hd : decode d = .ok i)
    (he : exec i s = .next u) : registerAccess d s = .next (hostAdvance (u.logAccess d)) := by
  simp [registerAccess, hd, he]

/-- Everything an access at an address can do (R72). -/
theorem memoryAccess_next {base : Nat} {a : HostAccess} {s t : State} (h : memoryAccess base a s = .next t) :
    (∃ d, admission base a = .window d ∧ registerAccess d s = .next t) ∨
    (admission base a = .badWidth ∧ t = s.recordFault .badWidth) ∨
    (admission base a = .ram ∧ ∃ u, ramAccess a s = .next u ∧ t = hostAdvance u) := by
  unfold memoryAccess at h
  split at h
  · exact .inl ⟨_, by assumption, h⟩
  · exact .inr (.inl ⟨by assumption, by simpa [raiseFault] using h.symm⟩)
  · obtain ⟨u, hu, rfl⟩ := Result.map_next h
    exact .inr (.inr ⟨by assumption, u, hu, rfl⟩)

/-- Everything the host's turn can do. -/
inductive HostEffect (s : State) : State → Prop where
  | hold : HostEffect s s
  | register (d : Descriptor) (t : State) (ha : hostAction s = .register d) (h : registerAccess d s = .next t) :
      HostEffect s t
  | memory (a : HostAccess) (t : State) (ha : hostAction s = .memory a)
      (h : memoryAccess Config.i2cBase a s = .next t) : HostEffect s t
  | delaySettle (ha : hostAction s = .delaySettle) (hs : s.settled = true) : HostEffect s (hostAdvance s)
  | begin (c : Call) (ha : hostAction s = .begin c) : HostEffect s (beginCall c s)
  | ret (r : Returned) (ha : hostAction s = .ret r) : HostEffect s (returnCall r s)

theorem hostTurn_effect {s t : State} (h : hostTurn s = .next t) : HostEffect s t := by
  unfold hostTurn at h
  split at h
  · cases hold_next h; exact .hold
  · exact .register _ _ (by assumption) h
  · exact .memory _ _ (by assumption) h
  · split at h
    · cases h; exact .delaySettle (by assumption) (by assumption)
    · cases hold_next h; exact .hold
  · cases h; exact .begin _ (by assumption)
  · cases h; exact .ret _ (by assumption)

/-- The controller's turn takes the step chosen if it is enabled, and holds otherwise. -/
theorem controllerTurn_cases {k : ControllerStep} {s t : State} (h : controllerTurn k s = .next t) :
    (enabled Config.hwFaultHang k s = true ∧ t = controllerStep k s) ∨ t = s := by
  unfold controllerTurn at h
  split at h
  · rename_i he
    exact .inl ⟨he, by simpa using h.symm⟩
  · exact .inr (hold_next h)

/-- `hostAdvance` moves the host alone. -/
theorem hostAdvance_cases (s : State) :
    hostAdvance s = s ∨ (s.faults = [] ∧
      ((∃ a, s.driver = some a ∧ hostAdvance s = { s with driver := some (a.next s.loaded) }) ∨
       (s.driver = none ∧ hostAdvance s = { s with program := s.program.tail }))) := by
  unfold hostAdvance
  split
  · rename_i hf
    have hf : s.faults = [] := by simpa using hf
    split
    · exact .inr ⟨hf, .inl ⟨_, by assumption, rfl⟩⟩
    · exact .inr ⟨hf, .inr ⟨by assumption, rfl⟩⟩
  · exact .inl rfl

/-! What a step does to the block. -/

/-- The block's record (R30) is the same in both states. -/
structure SameBlock (s t : State) : Prop where
  busy : t.busy = s.busy
  done : t.done = s.done
  error : t.error = s.error
  arbLost : t.arbLost = s.arbLost
  ack : t.ack = s.ack
  data : t.data = s.data
  prescale : t.prescale = s.prescale
  prescaleSet : t.prescaleSet = s.prescaleSet
  own : t.own = s.own
  inflight : t.inflight = s.inflight
  hung : t.hung = s.hung
  settled : t.settled = s.settled
  history : t.history = s.history
  faults : t.faults = s.faults

theorem SameBlock.refl (s : State) : SameBlock s s := by constructor <;> rfl

theorem SameBlock.trans {s t u : State} (h : SameBlock s t) (h' : SameBlock t u) : SameBlock s u := by
  constructor
  · exact h'.busy.trans h.busy
  · exact h'.done.trans h.done
  · exact h'.error.trans h.error
  · exact h'.arbLost.trans h.arbLost
  · exact h'.ack.trans h.ack
  · exact h'.data.trans h.data
  · exact h'.prescale.trans h.prescale
  · exact h'.prescaleSet.trans h.prescaleSet
  · exact h'.own.trans h.own
  · exact h'.inflight.trans h.inflight
  · exact h'.hung.trans h.hung
  · exact h'.settled.trans h.settled
  · exact h'.history.trans h.history
  · exact h'.faults.trans h.faults

theorem sameBlock_chooseBy (sched : Nat → Turn) (s : State) : SameBlock s (s.chooseBy sched) := by constructor <;> rfl
theorem sameBlock_drew (s : State) (n : Nat) : SameBlock s (s.drew n) := by constructor <;> rfl
theorem sameBlock_load (s : State) (v : Word) : SameBlock s (s.load v) := by constructor <;> rfl
theorem sameBlock_logAccess (s : State) (d : Descriptor) : SameBlock s (s.logAccess d) := by constructor <;> rfl

theorem sameBlock_returnCall (r : Returned) (s : State) : SameBlock s (returnCall r s) := by constructor <;> rfl

theorem sameBlock_placeArgument (slot : Word) (c : Call) (s : State) : SameBlock s (c.placeArgument slot s) := by
  cases c <;> constructor <;> rfl

theorem sameBlock_beginCall (c : Call) (s : State) : SameBlock s (beginCall c s) := by
  unfold beginCall
  dsimp only
  split <;> exact (sameBlock_placeArgument _ c s).trans (by constructor <;> rfl)

theorem sameBlock_hostAdvance (s : State) : SameBlock s (hostAdvance s) := by
  obtain h | ⟨-, ⟨a, -, h⟩ | ⟨-, h⟩⟩ := hostAdvance_cases s <;> rw [h] <;> constructor <;> rfl

theorem sameBlock_ramAccess {a : HostAccess} {s t : State} (h : ramAccess a s = .next t) : SameBlock s t := by
  obtain ⟨-, ⟨-, rfl⟩ | ⟨-, v, n, rfl⟩⟩ := ramAccess_cases h <;> constructor <;> rfl

/-- What a step does to the block: nothing; an access of the host and its effect; a recorded BadWidth; or an enabled
step of the controller. -/
inductive BlockEffect (s : State) : State → Prop where
  | same (t : State) (h : SameBlock s t) : BlockEffect s t
  | access (i : Instr) (u t : State) (ht : s.turn = .host) (he : ExecEffect s i u) (h : SameBlock u t) :
      BlockEffect s t
  | badWidth (t : State) (ht : s.turn = .host) (h : SameBlock (s.recordFault .badWidth) t) : BlockEffect s t
  | controller (k : ControllerStep) (t : State) (ht : s.turn = .controller k)
      (he : enabled Config.hwFaultHang k s = true) (h : SameBlock (controllerStep k s) t) : BlockEffect s t

theorem registerAccess_block {d : Descriptor} {s t : State} (h : registerAccess d s = .next t) :
    ∃ i u, ExecEffect s i u ∧ SameBlock u t := by
  obtain ⟨i, u, -, he, rfl⟩ := registerAccess_next h
  exact ⟨i, u, exec_effect he, (sameBlock_logAccess u d).trans (sameBlock_hostAdvance _)⟩

/-- The inversion of a step, as far as the block is concerned. -/
theorem stepBy_block {sched : Nat → Turn} {s t : State} (h : stepBy sched s = .next t) : s.faults = [] ∧ BlockEffect s t := by
  obtain ⟨hf, u, hu, rfl⟩ := stepBy_next h
  refine ⟨hf, ?_⟩
  cases ht : s.turn with
  | host =>
    rw [ht] at hu
    cases hostTurn_effect hu with
    | hold => exact .same _ (sameBlock_chooseBy _ s)
    | register d _ ha hr =>
      obtain ⟨i, v, he, hv⟩ := registerAccess_block hr
      exact .access i v _ ht he (hv.trans (sameBlock_chooseBy _ _))
    | memory a _ ha hm =>
      obtain ⟨d, -, hr⟩ | ⟨-, rfl⟩ | ⟨-, v, hv, rfl⟩ := memoryAccess_next hm
      · obtain ⟨i, v, he, hv⟩ := registerAccess_block hr
        exact .access i v _ ht he (hv.trans (sameBlock_chooseBy _ _))
      · exact .badWidth _ ht (sameBlock_chooseBy _ _)
      · exact .same _ (((sameBlock_ramAccess hv).trans (sameBlock_hostAdvance v)).trans (sameBlock_chooseBy _ _))
    | delaySettle => exact .same _ ((sameBlock_hostAdvance s).trans (sameBlock_chooseBy _ _))
    | begin c => exact .same _ ((sameBlock_beginCall c s).trans (sameBlock_chooseBy _ _))
    | ret r => exact .same _ ((sameBlock_returnCall r s).trans (sameBlock_chooseBy _ _))
  | controller k =>
    rw [ht] at hu
    obtain ⟨he, rfl⟩ | rfl := controllerTurn_cases hu
    · exact .controller k _ ht he (sameBlock_chooseBy _ _)
    · exact .same _ (sameBlock_chooseBy _ _)

theorem step_block {s t : State} (h : step s = .next t) : s.faults = [] ∧ BlockEffect s t := stepBy_block h

end Sys2Proof.Machine
end

