-- ==== Sys2Proof/Tests/Slice0.lean ====
section
/-! SUPPORT. Tests with expected values from 95_test_vectors.md (named at each), the WellFormed smoke test, and for every
obligation with hypotheses a witness that meets them. -/

namespace Sys2Proof.Tests

open Sys2Proof Sys2Proof.Machine

/-! ## WellFormed: each check refuses an ill-formed term -/

theorem test_wf_refuses_ctrl_word_without_reserved_bit : (Instr.ctrlRsvBits 0x5#32).wf = false := by decide
theorem test_wf_refuses_data_word_without_reserved_bit : (Instr.dataWriteRsv 0xFF#32).wf = false := by decide
theorem test_wf_accepts_lowest_reserved_bits :
    (Instr.ctrlRsvBits 0x10#32).wf = true ∧ (Instr.dataWriteRsv 0x100#32).wf = true := by decide

/-! ## Decode: each constructor, from a word written out from R100, R102, R108 and R144 to R159
({W, OFF[6:0], WDATA[31:0]}; CTRL bits 3:0 are {ACK_EN, READ, STOP, START}) -/

theorem test_decode_ctrlNop : decodeTableWord 40 0x8000000008 = some (.ctrlNop true) := by decide
theorem test_decode_ctrlWrbyte : decodeTableWord 40 0x8000000009 = some (.ctrlWrbyte true) := by decide
theorem test_decode_ctrlStop : decodeTableWord 40 0x8000000002 = some (.ctrlStop false) := by decide
theorem test_decode_ctrlRdbyteAck : decodeTableWord 40 0x800000000C = some (.ctrlRdbyteAck false) := by decide
theorem test_decode_ctrlRdbyteNack : decodeTableWord 40 0x8000000005 = some (.ctrlRdbyteNack true) := by decide
theorem test_decode_ctrlRsvStopStart : decodeTableWord 40 0x800000000B = some (.ctrlRsvStopStart false true) := by decide
theorem test_decode_ctrlRsvStopRead : decodeTableWord 40 0x800000000E = some (.ctrlRsvStopRead true) := by decide
theorem test_decode_ctrlRsvBits : decodeTableWord 40 0x8000000011 = some (.ctrlRsvBits 0x11#32) := by decide
theorem test_decode_ctrlRead : decodeTableWord 40 0x0000000000 = some .ctrlRead := by decide
theorem test_decode_statusRead : decodeTableWord 40 0x0400000000 = some .statusRead := by decide
theorem test_decode_statusWrite : decodeTableWord 40 0x84FFFFFFFF = some (.statusWrite 0xFFFFFFFF#32) := by decide
theorem test_decode_dataWrite : decodeTableWord 40 0x88000000FF = some (.dataWrite 0xFF#8) := by decide
theorem test_decode_dataWriteRsv : decodeTableWord 40 0x88000001A5 = some (.dataWriteRsv 0x1A5#32) := by decide
theorem test_decode_dataRead : decodeTableWord 40 0x0800000000 = some .dataRead := by decide
theorem test_decode_prescaleWrite : decodeTableWord 40 0x8CFFFFFFFF = some (.prescaleWrite 0xFFFFFFFF#32) := by decide
theorem test_decode_prescaleRead : decodeTableWord 40 0x0C00000000 = some .prescaleRead := by decide

/-- OFF 0x10 and OFF 0x02 are no register offsets (R100). -/
theorem test_decode_rejects_other_offsets :
    decodeTableWord 40 0x9000000000 = none ∧ decodeTableWord 40 0x0200000000 = none := by decide

/-! ## States -/

/-- Configured and idle (95_test_vectors.md, Conventions), on the host's turn. -/
def idle : State :=
  { State.resetWith default with prescale := 0x64#32, prescaleSet := true, settled := true, turn := .host }

/-- The bus held after an acknowledged byte: flags 0x13. -/
def held : State :=
  { idle with own := true, busy := true, data := some 0xA0#8, done := true, ack := true }

/-- A command in flight on a held bus: flags 0x01. -/
def flying (c : Cmd) : State := { held with done := false, ack := false, inflight := some c }

/-- The state after an access. -/
def after (i : Instr) (s : State) : State :=
  match exec i s with
  | .next t => t
  | _ => s

/-- STATUS[4:0]. -/
def flags (s : State) : BitVec 5 := (statusWord 0#27 s).setWidth 5

/-! ## One access each (L2-D, L2-F, L2-G) -/

theorem test_ctrlNop_in_flight : after (.ctrlNop false) (flying .stop) = flying .stop := by decide

theorem test_ctrlWrbyte_starts :
    let t := after (.ctrlWrbyte false) { idle with data := some 0xA0#8, done := true }
    flags t = 0x01#5 ∧ t.own = true ∧ t.inflight = some (.wrByte true) ∧ t.history = [.start] := by decide

theorem test_ctrlWrbyte_continues :
    let t := after (.ctrlWrbyte false) held
    flags t = 0x01#5 ∧ t.own = true ∧ t.inflight = some (.wrByte false) ∧ t.history = [] := by decide

theorem test_ctrlRdbyteAck_ignores_start :
    let t := after (.ctrlRdbyteAck true) held
    flags t = 0x01#5 ∧ t.inflight = some (.rdByte true) := by decide

theorem test_ctrlRdbyteNack :
    let t := after (.ctrlRdbyteNack false) held
    flags t = 0x01#5 ∧ t.inflight = some (.rdByte false) := by decide

theorem test_ctrlStop_at_idle :
    let t := after (.ctrlStop false) { idle with done := true }
    flags t = 0x00#5 ∧ t.own = false ∧ t.inflight = some .stop := by decide

theorem test_ctrlRsvStopStart_in_flight :
    after (.ctrlRsvStopStart false false) (flying .stop) = { flying .stop with faults := [.reservedCommand] } := by decide

theorem test_ctrlRsvStopRead : after (.ctrlRsvStopRead false) idle = { idle with faults := [.reservedCommand] } := by decide

/-- `SW CTRL, 0x13` is ReservedBits, not ReservedCommand. -/
theorem test_ctrlRsvBits :
    decodeTableWord 40 0x8000000013 = some (.ctrlRsvBits 0x13#32) ∧
    after (.ctrlRsvBits 0x13#32) idle = { idle with faults := [.reservedBits] } := by decide

theorem test_ctrlRead_keeps_the_block : flags (after .ctrlRead held) = 0x13#5 ∧ (after .ctrlRead held).data = some 0xA0#8 := by
  decide

theorem test_statusRead_keeps_the_flags : flags (after .statusRead held) = 0x13#5 := by decide

theorem test_statusWrite : after (.statusWrite 0#32) held = { held with faults := [.writeReadOnly] } := by decide

theorem test_dataWrite_in_flight :
    after (.dataWrite 0x5#8) (flying .stop) = { flying .stop with faults := [.dataInFlight] } := by decide

theorem test_dataWrite : (after (.dataWrite 0x3C#8) idle).data = some 0x3C#8 := by decide

theorem test_dataWriteRsv : after (.dataWriteRsv 0x100#32) idle = { idle with faults := [.reservedBits] } := by decide

theorem test_dataRead_unwritten : after .dataRead idle = { idle with faults := [.dataUnwritten] } := by decide

theorem test_dataRead_keeps_the_byte : (after .dataRead { idle with data := some 0x11#8 }).data = some 0x11#8 := by decide

/-- Legal at reset with a drawn busy of 1. -/
theorem test_prescaleWrite_at_reset :
    let t := after (.prescaleWrite 0x64#32) { State.resetWith default with busy := true, turn := .host }
    t.faults = [] ∧ t.prescale = 0x64#32 ∧ t.prescaleSet = true ∧ t.settled = false ∧ t.busy = true := by decide

theorem test_prescaleWrite_while_held :
    after (.prescaleWrite 0x64#32) held = { held with faults := [.prescaleBusy] } := by decide

theorem test_prescaleRead_keeps_the_divisor : (after .prescaleRead idle).prescale = 0x64#32 := by decide

/-! ## The controller (L2-E) and the driver's functions (L2-B, L2-C, R261) -/

theorem test_completeWrByte_ack :
    let t := completeWrByte 0xA0#8 .ack (flying (.wrByte true))
    flags t = 0x13#5 ∧ t.history = [.tx 0xA0#8 .ack] ∧ t.own = true := by decide

theorem test_completeWrByte_arb_then_release :
    let t := completeWrByte 0xA0#8 .arb (flying (.wrByte true))
    flags t = 0x0B#5 ∧ t.own = false ∧ flags (releaseBus t) = 0x0A#5 := by decide

theorem test_completeRdByte_err :
    let t := completeRdByte true .err 0x5A#8 false (flying (.rdByte true))
    flags t = 0x07#5 ∧ t.history = [.rx none true .err] ∧ t.own = true := by decide

theorem test_completeStop_after_arb :
    let t := completeStop .ok { flying .stop with own := false }
    flags t = 0x03#5 ∧ t.history = [] ∧ flags (releaseBus t) = 0x02#5 := by decide

theorem test_addrByte_of_last_candidate : addrByte Config.scanLast false = 0xEE#8 := by decide
theorem test_classify_arb_wins : classify 0x0F#32 = .arbLost := by decide
theorem test_classify_error_wins_over_ack : classify 0x16#32 = .error := by decide
theorem test_classify_ignores_reserved_bits : classify 0xFFFFFFE3#32 = .nack := by decide
theorem test_nack_code : (Returned.status .nack).code = 0xFFFFFFFD#32 := by decide

/-- The placed word runs as the first instruction after reset. -/
theorem test_placed_word_runs_at_reset : ∃ t, step (State.reset.withFetchWord 40 0x8400000000) = .next t ∧
    t.faults = [.writeReadOnly] ∧ t.accesses = [0x8400000000#40] := ⟨_, rfl, rfl, rfl⟩

/-! ## Witnesses: encoding and admission -/

theorem witness_CtrlWritesDecodeByTable :
    (0x10#32).extractLsb' 4 28 ≠ 0#28 ∧ (0x80000000#32).extractLsb' 4 28 ≠ 0#28 := by decide

theorem witness_DecodeOfEncode :
    (Instr.ctrlRsvBits 0x10#32).wf = true ∧ (Instr.dataWriteRsv 0xFFFFFFFF#32).wf = true ∧ Instr.ctrlRead.wf = true := by
  decide

theorem witness_EncodeOfDecode :
    (decode 0x8000000010#40 = .ok (.ctrlRsvBits 0x10#32) ∧ isWrite 0x8000000010#40 = true) ∧
    (decode 0x0C00000000#40 = .ok .prescaleRead ∧ wdataOf 0x0C00000000#40 = 0#32) := ⟨⟨rfl, rfl⟩, rfl, rfl⟩

/-- The clauses of R72 at the ends of the window, at base 0x100. -/
theorem witness_OnlyAlignedWordsAreAdmitted :
    admission 0x100 ⟨true, 0x100, .byte, 0#32⟩ = .badWidth ∧ admission 0x100 ⟨false, 0x10E, .word, 0#32⟩ = .badWidth ∧
    admission 0x100 ⟨false, 0x10C, .word, 0#32⟩ = .window 0x0C00000000#40 ∧
    admission 0x100 ⟨true, 0x0FF, .half, 0#32⟩ = .badWidth ∧ admission 0x100 ⟨true, 0x0FC, .word, 0#32⟩ = .ram ∧
    admission 0x100 ⟨true, 0x110, .byte, 0#32⟩ = .ram := by decide

theorem witness_AdmittedAccessesDecode :
    admission 0x100 ⟨true, 0x108, .word, 0xA5#32⟩ = .window 0x88000000A5#40 := by decide

/-! ## Witnesses: the step -/

theorem witness_StepRuns_no_operation :
    let s := { idle with program := [.register cmdStop] }
    s.faults = [] ∧ s.turn = .host ∧ hostAction s = .register cmdStop ∧ decode cmdStop = .ok (.ctrlStop false) ∧
    s.driver = none ∧ (after (.ctrlStop false) s).faults = [] := ⟨rfl, rfl, rfl, rfl, rfl, rfl⟩

theorem witness_StepRuns_faulting :
    let s := { idle with program := [.register cmdStart] }
    hostAction s = .register cmdStart ∧ decode cmdStart = .ok (.ctrlWrbyte false) ∧
    (after (.ctrlWrbyte false) s).faults ≠ [] := ⟨rfl, rfl, by decide⟩

/-- A running `write_byte`, at a position. -/
def writing (pos : DriverPos) : Activation := .start (.write 0x50#7 (byteAddress 0x1000#32) 1#32) pos

theorem witness_StepRuns_in_an_operation :
    let s := { held with driver := some (writing .sendStart) }
    hostAction s = .register cmdStart ∧ (after (.ctrlWrbyte false) s).faults = [] := ⟨rfl, by decide⟩

theorem witness_PlacedWordRunsNext : idle.faults = [] ∧ decodeTableWord 40 0x8000000002 = some (.ctrlStop false) := by
  decide

theorem witness_FaultedState : ({ idle with faults := [.badWidth] } : State).faults = [.badWidth] := rfl

theorem witness_AgentWithoutStep_holds :
    let s := { idle with settled := false }
    s.faults = [] ∧ s.turn = .host ∧ hostEnabled s = false ∧ anyEnabled s = true := by decide

theorem witness_AgentWithoutStep_stuck :
    let s := { idle with turn := .controller .release }
    s.faults = [] ∧ enabled Config.hwFaultHang .release s = false ∧ anyEnabled s = false := by decide

/-! ## Witnesses: the accesses -/

theorem configured_idle : Configured idle := ⟨rfl, by decide, rfl⟩
theorem configured_held : Configured held := ⟨rfl, by decide, rfl⟩

theorem witness_WrByteSends_on_a_free_bus :
    let s := { idle with data := some 0xA0#8 }
    s.inflight = none ∧ Configured s ∧ s.data ≠ none ∧ s.own = false ∧ s.busy = false :=
  ⟨rfl, configured_idle, by decide, rfl, rfl⟩

theorem witness_WrByteSends_on_a_held_bus :
    held.inflight = none ∧ Configured held ∧ held.data ≠ none ∧ held.own = true := ⟨rfl, configured_held, by decide, rfl⟩

theorem witness_WrByteSends_faulting :
    (idle.inflight = none ∧ Configured idle ∧ idle.data = none) ∧
    (let s := { idle with data := some 0xA0#8, busy := true }
     Configured s ∧ s.data ≠ none ∧ s.own = false ∧ s.busy = true) ∧
    ¬((flying .stop).inflight = none ∧ Configured (flying .stop)) :=
  ⟨⟨rfl, configured_idle, rfl⟩, ⟨configured_idle, by decide, rfl, rfl⟩, fun h => nomatch h.1⟩

theorem witness_ReadCommands :
    (held.inflight = none ∧ Configured held ∧ held.own = true) ∧ (Configured idle ∧ idle.own = false) ∧
    ¬((flying .stop).inflight = none ∧ Configured (flying .stop)) :=
  ⟨⟨rfl, configured_held, rfl⟩, ⟨configured_idle, rfl⟩, fun h => nomatch h.1⟩

theorem witness_StopIssues :
    (idle.inflight = none ∧ Configured idle) ∧ ¬((flying .stop).inflight = none ∧ Configured (flying .stop)) :=
  ⟨⟨rfl, configured_idle⟩, fun h => nomatch h.1⟩

theorem witness_CommandPreconditions :
    IsCommand (.ctrlStop false) ∧ (flying .stop).inflight ≠ none ∧
    (State.resetWith default).inflight = none ∧ (State.resetWith default).prescaleSet = false ∧
    ({ idle with prescale := 0#32 } : State).prescale = 0#32 ∧
    (let s := { idle with settled := false }
     s.inflight = none ∧ s.prescaleSet = true ∧ s.prescale ≠ 0#32 ∧ s.settled = false) :=
  ⟨⟨false, by simp⟩, by decide, rfl, rfl, rfl, by decide⟩

theorem witness_ReservedBits : (0x10#32).extractLsb' 4 28 ≠ 0#28 ∧ (0x100#32).extractLsb' 8 24 ≠ 0#24 := by decide

theorem witness_ReservedCommands : 0xF#32 ∈ [0x3#32, 0x7#32, 0xB#32, 0xF#32] ∧ 0x6#32 ∈ [0x6#32, 0xE#32] := by decide

/-- A state with a command in flight, hung or not, meets the block's invariant. -/
theorem invariant_flying (h : Bool) (p : List HostOp) :
    BlockInvariant { flying (.wrByte true) with hung := h, program := p } where
  owned_busy := by intro _; rfl
  owned_configured := fun _ => configured_held
  inflight_configured := fun _ => configured_held
  inflight_flags := fun _ => ⟨rfl, rfl, rfl, rfl⟩
  sending_owned := fun _ => ⟨rfl, rfl⟩
  receiving_owned := fun _ => rfl
  hung_inflight := fun _ => rfl
  settled_set := fun _ => rfl
  one_fault := Nat.zero_le 1
  memory_wf := rfl

theorem witness_StatusRead :
    BlockInvariant { flying (.wrByte true) with hung := true } ∧ (flying (.wrByte true)).inflight ≠ none :=
  ⟨invariant_flying true [], by decide⟩

theorem witness_RepeatedStatusReads :
    ∃ t u, exec .statusRead held = .next t ∧ exec .statusRead t = .next u := ⟨_, _, rfl, rfl⟩

theorem witness_DataRead :
    (flying .stop).inflight ≠ none ∧ (idle.inflight = none ∧ idle.data = none) ∧
    (held.inflight = none ∧ held.data = some 0xA0#8) := by decide

theorem witness_DataWrite : idle.inflight = none ∧ (flying .stop).inflight ≠ none := by decide

theorem witness_PrescaleWrite :
    (idle.inflight = none ∧ idle.own = false) ∧ (flying .stop).inflight ≠ none ∧ held.own = true := by decide

theorem witness_AccessesWriteOnlyTheirRegisters :
    ∃ t, exec (.dataWrite 0x3C#8) idle = .next t ∧ t.faults = [] ∧ ¬IsCommand (.dataWrite 0x3C#8) ∧
      ¬IsRead (.dataWrite 0x3C#8) := by
  refine ⟨_, rfl, rfl, ?_, ?_⟩
  · rintro ⟨a, h | h | h | h⟩ <;> cases h
  · rintro (h | h | h | h) <;> cases h

theorem witness_FaultingAccess : ∃ t, exec (.statusWrite 0#32) idle = .next t ∧ t.faults ≠ idle.faults :=
  ⟨_, rfl, by decide⟩

/-! ## Witnesses: the controller -/

theorem witness_ControllerStepsEnabled :
    enabled true .completeWrByte (flying (.wrByte true)) = true ∧ enabled true .completeRdByte (flying (.rdByte true)) = true ∧
    enabled true .completeStop (flying .stop) = true ∧ enabled true .release { idle with busy := true } = true ∧
    enabled true .hang (flying .stop) = true ∧ enabled true .settle { idle with settled := false } = true ∧
    ({ idle with faults := [.badWidth] } : State).faults ≠ [] := by decide

theorem witness_WrByteCompletes :
    let s := { flying (.wrByte true) with turn := .controller .completeWrByte }
    s.faults = [] ∧ s.inflight = some (.wrByte true) ∧ s.hung = false ∧ s.data = some 0xA0#8 := by decide

theorem witness_RdByteCompletes :
    let s := { flying (.rdByte false) with turn := .controller .completeRdByte }
    s.faults = [] ∧ s.inflight = some (.rdByte false) ∧ s.hung = false := by decide

theorem witness_StopCompletes :
    let s := { flying .stop with turn := .controller .completeStop }
    s.faults = [] ∧ s.inflight = some .stop ∧ s.hung = false ∧ s.own = true ∧ { s with own := false }.own = false := by decide

theorem witness_HungCommand_hang_step :
    let s := { flying .stop with turn := .controller .hang }
    s.faults = [] ∧ s.inflight ≠ none ∧ s.hung = false := by decide

theorem witness_Release :
    let s := { idle with busy := true, turn := .controller .release }
    s.faults = [] ∧ s.inflight = none ∧ s.own = false ∧ s.busy = true := by decide

theorem witness_Settle :
    let s := { idle with settled := false, turn := .controller .settle }
    s.faults = [] ∧ s.prescaleSet = true ∧ s.settled = false := by decide

/-! ## Witnesses: rules of the whole machine -/

/-- The host's turn with one access to make. -/
def about (s : State) (d : Descriptor) : State := { s with program := [.register d] }

theorem witness_EveryStepKeepsTheBlockInvariant :
    BlockInvariant (about (flying (.wrByte true)) loadStatus) ∧
    ∃ t, step (about (flying (.wrByte true)) loadStatus) = .next t := ⟨invariant_flying false _, _, rfl⟩

theorem witness_BusyRises :
    ∃ t, step (about { idle with data := some 0xA0#8 } cmdStart) = .next t ∧ t.busy = true := ⟨_, rfl, rfl⟩

theorem witness_BusyFalls :
    ∃ t, step { idle with busy := true, turn := .controller .release } = .next t ∧ t.busy = false := ⟨_, rfl, rfl⟩

theorem witness_FlagsAreStable :
    held.inflight = none ∧ ∃ t, step (about held loadStatus) = .next t ∧ t.inflight = none := ⟨rfl, _, rfl, rfl⟩

theorem witness_HungCommandNeverCompletes :
    (∃ t, step (about { flying .stop with hung := true } loadStatus) = .next t) ∧
    ∃ t, step { flying .stop with turn := .controller .hang } = .next t ∧ t.hung = true := ⟨⟨_, rfl⟩, _, rfl, rfl⟩

theorem witness_DataIsStable :
    (flying (.wrByte true)).inflight = some (.wrByte true) ∧ ∃ t, step (about (flying (.wrByte true)) loadStatus) = .next t :=
  ⟨rfl, _, rfl⟩

theorem witness_FairRuns_step_stays_enabled :
    enabled Config.hwFaultHang .completeStop (about (flying .stop) loadStatus) = true ∧
    ∃ t, step (about (flying .stop) loadStatus) = .next t ∧ t.faults = [] := ⟨by decide, _, rfl, rfl⟩

/-- The host polls in `wait_bus_free`, and the controller has the turn with the step `k`. -/
def polling (k : ControllerStep) (s : State) : State :=
  { s with driver := some (writing .waitFree), turn := .controller k, ticks := 0 }

/-- The run in which the controller takes `k` once and has every turn after it. -/
def onlyStep (k : ControllerStep) (s : State) : Nat → State
  | 0 => s
  | n + 1 => { controllerStep k s with turn := .controller k, ticks := n + 1 }

/-- It is an endless weakly fair run when `k` leaves no fair step and no second `k` to take. -/
theorem onlyStep_run (k : ControllerStep) (s : State) (ht : s.turn = .controller k) (h0 : s.ticks = 0)
    (hf : s.faults = []) (he : enabled Config.hwFaultHang k s = true)
    (hticks : (controllerStep k s).ticks = s.ticks) (hfaults : (controllerStep k s).faults = [])
    (hk : enabled Config.hwFaultHang k (controllerStep k s) = false)
    (hfair : ∀ j, isFair j = true → enabled Config.hwFaultHang j (controllerStep k s) = false)
    (hhost : hostEnabled (controllerStep k s) = true) :
    IsRun (fun _ => .controller k) (onlyStep k s) ∧ WeaklyFair (onlyStep k s) := by
  constructor
  · intro n
    cases n with
    | zero =>
      have := stepBy_of_turn (s := s) (u := controllerStep k s) (fun _ => Turn.controller k) hf
        (by rw [ht]; simp [agentTurn, controllerTurn, he])
      simpa [onlyStep, State.chooseBy, hticks, h0] using this
    | succ n =>
      have hany : anyEnabled (onlyStep k s (n + 1)) = true := by
        show (hostEnabled (controllerStep k s) || _) = true
        rw [hhost]
        rfl
      have hno : enabled Config.hwFaultHang k (onlyStep k s (n + 1)) = false := hk
      exact stepBy_of_turn (s := onlyStep k s (n + 1)) (u := onlyStep k s (n + 1)) (fun _ => Turn.controller k) hfaults
        (show controllerTurn k (onlyStep k s (n + 1)) = _ by simp [controllerTurn, hno, hold, hany])
  · intro j hj n h
    have h1 : enabled Config.hwFaultHang j (controllerStep k s) = true := h (n + 1) (Nat.le_succ n)
    rw [hfair j hj] at h1
    cases h1

theorem witness_FairRuns_completes : ∃ sched r, IsRun sched r ∧ WeaklyFair r ∧ (r 0).inflight ≠ none ∧
    ∀ m, (r m).hung = false := by
  obtain ⟨h1, h2⟩ := onlyStep_run .completeStop (polling .completeStop { idle with inflight := some .stop })
    rfl rfl rfl rfl rfl rfl rfl (by intro j; cases j <;> decide) rfl
  exact ⟨_, _, h1, h2, by decide, fun m => by cases m <;> rfl⟩

theorem witness_FairRuns_releases : ∃ sched r, IsRun sched r ∧ WeaklyFair r ∧ (r 0).inflight = none ∧
    (r 0).own = false ∧ (r 0).busy = true := by
  obtain ⟨h1, h2⟩ := onlyStep_run .release (polling .release { idle with busy := true })
    rfl rfl rfl rfl rfl rfl rfl (by intro j; cases j <;> decide) rfl
  exact ⟨_, _, h1, h2, rfl, rfl, rfl⟩

theorem witness_FairRuns_settles : ∃ sched r, IsRun sched r ∧ WeaklyFair r ∧ (r 0).prescaleSet = true ∧
    (r 0).settled = false := by
  obtain ⟨h1, h2⟩ := onlyStep_run .settle (polling .settle { idle with settled := false })
    rfl rfl rfl rfl rfl rfl rfl (by intro j; cases j <;> decide) rfl
  exact ⟨_, _, h1, h2, rfl, rfl⟩

theorem witness_FairRuns_stuck : stepBy (fun _ => .host) idle = .fault .stuck ∧ idle.prescaleSet = true ∧
    idle.inflight = none ∧ idle.own = false := ⟨rfl, rfl, rfl, rfl⟩

theorem witness_PrescaleChanges :
    ∃ t, step (about idle (storePrescale 0x65#32)) = .next t ∧ t.prescale ≠ idle.prescale := ⟨_, rfl, by decide⟩

theorem witness_HistoryOnlyGrows :
    ∃ t, step (about { idle with data := some 0xA0#8 } cmdStart) = .next t ∧ t.history = [.start] := ⟨_, rfl, rfl⟩

theorem witness_RamStore :
    ∃ t, ramAccess ⟨true, 0x10, .word, 0xAABBCCDD#32⟩ idle = .next t ∧ Memory.read t.memory 0x10 = some 0xDD#8 ∧
      Memory.read t.memory 0x13 = some 0xAA#8 := ⟨_, rfl, rfl, rfl⟩

theorem witness_RamLoad : ∃ t, ramAccess ⟨false, 0x10, .word, 0#32⟩ idle = .next t := ⟨_, rfl⟩

/-! ## Witnesses: the driver -/

theorem witness_Classify :
    ({ held with arbLost := true } : State).arbLost = true ∧
    (held.arbLost = false ∧ { held with error := true }.error = true) ∧
    (held.error = false ∧ { held with ack := false }.ack = false ∧ held.ack = true) := by decide

/-- The host's turn with one call to make. -/
def calling (c : Call) : State := { idle with program := [.call c] }

theorem witness_GuardedCalls :
    (∃ t, step (calling (.write 0x50#7 0#32 4#32)) = .next t ∧ t.results = [.status .error]) ∧
    (∃ t, step (calling (.read 0x50#7 1#32 0x80000000#32)) = .next t ∧ t.results = [.status .error]) ∧
    (∃ t, step (calling (.readByte 0x50#7 0#32)) = .next t ∧ t.results = [.status .error]) ∧
    ∃ t, step (calling (.scan 1#32 0#32)) = .next t ∧ t.results = [.count 0] :=
  ⟨⟨_, rfl, rfl⟩, ⟨_, rfl, rfl⟩, ⟨_, rfl, rfl⟩, _, rfl, rfl⟩

/-- A running `init`, at a position. -/
def initing (pos : DriverPos) : Activation := .start (.init 0x64#32) pos

theorem witness_InitWrites :
    (calling (.init 0x64#32)).program = .call (.init 0x64#32) :: [] ∧ (calling (.init 0x64#32)).driver = none ∧
    (initing .writePrescale).job = .init 0x64#32 ∧ idle.inflight = none ∧ idle.own = false ∧
    { idle with settled := false }.prescaleSet = true ∧ idle.settled = true ∧ held.own = true ∧
    (initing .ret).pos = .ret := by decide

theorem witness_SendByte :
    let s := { idle with data := some 0xA0#8, driver := some (writing .sendStart) }
    s.faults = [] ∧ s.turn = .host ∧ s.inflight = none ∧ Configured s ∧ s.data ≠ none ∧ s.busy = false ∧
    (writing .sendStart).pos = .sendStart ∧ (writing .sendData).pos = .sendData ∧
    (writing .sendWait).pos = .sendWait ∧ (writing .sendClassify).pos = .sendClassify :=
  ⟨rfl, rfl, rfl, configured_idle, by decide, rfl, rfl, rfl, rfl, rfl⟩

/-- A running `read`, at a position. -/
def reading (pos : DriverPos) : Activation := .start (.read 0x50#7 0x1000#32 2#32) pos

theorem witness_ReceiveByte :
    let s := { held with driver := some (reading .recvCommand) }
    s.faults = [] ∧ s.turn = .host ∧ s.inflight = none ∧ Configured s ∧ s.own = true ∧ s.data = some 0xA0#8 ∧
    idle.own = false ∧ (reading .recvCommand).pos = .recvCommand ∧ (reading .recvWait).pos = .recvWait ∧
    (reading .recvData).pos = .recvData := ⟨rfl, rfl, rfl, configured_held, rfl, rfl, rfl, rfl, rfl, rfl⟩

theorem witness_StopSequence :
    let s := { held with driver := some (writing .stopCommand) }
    s.faults = [] ∧ s.turn = .host ∧ s.inflight = none ∧ Configured s ∧ (writing .stopCommand).pos = .stopCommand ∧
    (writing .stopWait).pos = .stopWait ∧ (writing .stopFree).pos = .stopFree :=
  ⟨rfl, rfl, rfl, configured_held, rfl, rfl, rfl⟩

theorem witness_BootOrder : (0x64#32 : Word) ≠ 0#32 ∧ ∀ c ∈ [Call.writeByte 0x50#7 0x3C#8], c.Valid := by
  refine ⟨by decide, ?_⟩
  intro c hc
  cases List.mem_singleton.1 hc
  exact trivial

/-- A `write_byte` that is about to issue its address byte meets the driver's invariant. -/
theorem invariant_writing :
    DriverInvariant { idle with data := some 0xA0#8, driver := some (writing .sendStart) } where
  no_fault := rfl
  program_valid := fun _ h => nomatch h
  running := by
    intro a h
    cases h
    exact ⟨.inl rfl, (byteAddress_ram _).2, rfl, .inr rfl, rfl, rfl, by decide, rfl⟩
  between := fun h => nomatch h

theorem witness_DriverInvariantIsKept :
    ∃ t, step { idle with data := some 0xA0#8, driver := some (writing .sendStart) } = .next t ∧ NoEarlyArb t :=
  ⟨_, rfl, fun h => by
    have : BusEvent.rx none true .arb ∈ [BusEvent.start] := h
    revert this
    decide⟩

theorem witness_TransfersReturn :
    DriverInvariant { idle with driver := some (writing .ret) } where
  no_fault := rfl
  program_valid := fun _ h => nomatch h
  running := by
    intro a h
    cases h
    exact ⟨.inl rfl, (byteAddress_ram _).2, ⟨rfl, by decide, rfl⟩, ⟨rfl, rfl⟩, .inr rfl⟩
  between := fun h => nomatch h

/-- Some one-byte buffer is host RAM, wherever the window lies. -/
theorem some_valid_buffer : ∃ p : Word, p ≠ 0#32 ∧ ValidBuffer p.toNat 1 := ⟨_, byteAddress_ram 0#32⟩

theorem one_byte : 0 < lengthOf 1#32 := by decide

theorem first_in_range : 8 ≤ Config.scanFirst.toNat ∧ Config.scanFirst.toNat ≤ 119 ∧ 0 + 8 ≤ Config.scanFirst.toNat := by
  decide

/-- A `read` of one byte that is about to issue its STOP after an acknowledge pattern of R230. -/
theorem witness_ReadAcknowledges : ∃ p : Word, ∃ s a, DriverInvariant s ∧ s.driver = some a ∧ a.AcksAt s ∧
    a.job = .read 0x50#7 p 1#32 ∧ a.pos = .stopCommand ∧ a.result = .ok ∧ ∃ t, step s = .next t ∧ NoEarlyArb t := by
  obtain ⟨p, -, hp⟩ := some_valid_buffer
  refine ⟨p, { held with
    history := [.rx (some 0x11#8) false .ok]
    driver := some (.start (.read 0x50#7 p 1#32) .stopCommand) }, _, ?_, rfl, ?_, rfl, rfl, rfl, _, rfl, ?_⟩
  · exact { no_fault := rfl
            program_valid := fun _ h => nomatch h
            running := by
              intro a h
              cases h
              exact ⟨⟨one_byte, .inl ⟨rfl, fun h => nomatch h⟩⟩, hp, configured_held, rfl⟩
            between := fun h => nomatch h }
  · intro _; rfl
  · intro h
    have : BusEvent.rx none true .arb ∈ [BusEvent.rx (some 0x11#8) false .ok] := h
    revert this
    decide

/-- A `scan` about to probe its first candidate. -/
theorem witness_ScanRecords : ∃ p : Word, ∃ s a, DriverInvariant s ∧ s.driver = some a ∧ a.FoundAt s ∧
    a.job = .scan p 1#32 ∧ ∃ t, step s = .next t ∧ NoEarlyArb t := by
  obtain ⟨p, -, hp⟩ := some_valid_buffer
  refine ⟨p, { idle with driver := some (.start (.scan p 1#32) .waitFree) }, _, ?_, rfl, ?_, rfl, _, rfl, ?_⟩
  · exact { no_fault := rfl
            program_valid := fun _ h => nomatch h
            running := by
              intro a h
              cases h
              exact ⟨⟨.inl rfl, Nat.le_of_lt one_byte, Nat.zero_le _, fun _ => ⟨one_byte, first_in_range⟩⟩, hp,
                ⟨rfl, rfl⟩, configured_idle⟩
            between := fun h => nomatch h }
  · exact ⟨fun j h => absurd h (Nat.not_lt_zero j), fun j k _ _ _ h => absurd h (Nat.not_lt_zero k)⟩
  · intro h
    have : BusEvent.rx none true .arb ∈ ([] : List BusEvent) := h
    exact nomatch this

/-- A `read` that stores a byte changes it. -/
theorem witness_OperationsUse_store : ∃ p : Word, ∃ s a, DriverInvariant s ∧ s.driver = some a ∧
    ∃ t, step s = .next t ∧ Memory.read t.memory p.toNat ≠ Memory.read s.memory p.toNat := by
  obtain ⟨p, -, hp⟩ := some_valid_buffer
  let a : Activation := .start (.read 0x50#7 p 1#32) .storeByte
  let s : State := { held with driver := some a }
  have hram : admission Config.i2cBase (writeByteAt p.toNat 0#8) = .ram := admit_byte_outside _ _ rfl (by
    have := hp.2; simpa [writeByteAt] using this)
  have hs : p.toNat + 1 ≤ Config.addressSpace := hp.1
  have hacc : ramAccess (writeByteAt p.toNat 0#8) s =
      .next { s with memory := ramStore 1 p.toNat 0#32 s.memory } := by
    simp [ramAccess, writeByteAt, AccessSize.bytes]; omega
  refine ⟨p, s, a, ?_, rfl, (hostAdvance { s with memory := ramStore 1 p.toNat 0#32 s.memory }).choose, ?_, ?_⟩
  · exact { no_fault := rfl
            program_valid := fun _ h => nomatch h
            running := by
              intro b h
              cases h
              exact ⟨⟨one_byte, .inr ⟨rfl, one_byte⟩⟩, hp, configured_held, rfl, fun _ => rfl⟩
            between := fun h => nomatch h }
  · refine step_of_turn rfl ?_
    show memoryAccess Config.i2cBase (writeByteAt p.toNat 0#8) s = _
    simp [memoryAccess, hram, hacc]
  · show Memory.read (Memory.write [] p.toNat _) p.toNat ≠ none
    simp [Memory.read_write]

/-- `write_byte` entered: its byte lies at an address in host RAM. -/
theorem witness_OperationsUse_begin :
    let s := calling (.writeByte 0x50#7 0x3C#8)
    s.faults = [] ∧ s.turn = .host ∧ s.driver = none ∧ s.program = [.call (.writeByte 0x50#7 0x3C#8)] ∧
    (calling (.init 0x64#32)).program = [.call (.init 0x64#32)] := ⟨rfl, rfl, rfl, rfl, rfl⟩

/-- A `write_byte` about to fetch its byte. -/
theorem witness_OperationsUse_fetch : ∃ p : Word, ∃ s a, DriverInvariant s ∧ s.turn = .host ∧ s.driver = some a ∧
    a.job = .write 0x50#7 p 1#32 ∧ a.pos = .fetchByte ∧ Memory.read s.memory (p.toNat + a.index) = some 0x3C#8 := by
  obtain ⟨p, -, hp⟩ := some_valid_buffer
  refine ⟨p, { held with
    memory := [(p.toNat, 0x3C#8)]
    driver := some (.start (.write 0x50#7 p 1#32) .fetchByte) }, _, ?_, rfl, rfl, rfl, rfl, if_pos rfl⟩
  exact { no_fault := rfl
          program_valid := fun _ h => nomatch h
          running := by
            intro a h
            cases h
            exact ⟨.inr ⟨rfl, one_byte⟩, hp, configured_held, rfl, rfl⟩
          between := fun h => nomatch h }

theorem witness_NoOperationReturnsBusy :
    let s := { idle with driver := some (writing .ret) }
    (∀ a, s.driver = some a → a.result ≠ .busy) ∧ Returned.status .busy ∉ s.results ∧ ∃ t, step s = .next t :=
  ⟨by intro a h; cases h; decide, by decide, _, rfl⟩

end Sys2Proof.Tests
end

section
/-! PROOFS. The turn of an agent without an enabled step (R11, logs 4, 21): its turn is a hold, and what a step is that
takes a hold. -/

namespace Sys2Proof.Machine

/-- A hold while some agent has an enabled step. -/
theorem hold_of_anyEnabled {s : State} (h : anyEnabled s = true) : hold s = .next s := if_pos h

/-- A hold while no agent has one is stuck. -/
theorem hold_of_not_anyEnabled {s : State} (h : anyEnabled s = false) : hold s = .fault .stuck := by
  simp [hold, h]

/-- The host has a step for every action but two: none at all, and `DELAY_SETTLE` before the controller has settled. -/
theorem hostEnabled_eq_false {s : State} (hf : s.faults = []) (h : hostEnabled s = false) :
    hostAction s = .none ∨ (hostAction s = .delaySettle ∧ s.settled = false) := by
  cases ha : hostAction s with
  | none => exact .inl rfl
  | delaySettle => exact .inr ⟨rfl, by simpa [hostEnabled, hf, ha] using h⟩
  | register d => simp [hostEnabled, hf, ha] at h
  | memory a => simp [hostEnabled, hf, ha] at h
  | begin c => simp [hostEnabled, hf, ha] at h
  | ret r => simp [hostEnabled, hf, ha] at h

theorem hostTurn_eq_hold {s : State} (hf : s.faults = []) (h : hostEnabled s = false) : hostTurn s = hold s := by
  obtain ha | ⟨ha, hs⟩ := hostEnabled_eq_false hf h
  · simp [hostTurn, ha]
  · simp [hostTurn, ha, hs]

theorem controllerTurn_eq_hold {k : ControllerStep} {s : State} (h : enabled Config.hwFaultHang k s = false) :
    controllerTurn k s = hold s := by
  simp [controllerTurn, h]

/-- The agent whose turn it is has no enabled step: its turn is a hold. -/
theorem agentTurn_eq_hold {s : State} (hf : s.faults = [])
    (h : s.turn = .host ∧ hostEnabled s = false ∨
      ∃ k, s.turn = .controller k ∧ enabled Config.hwFaultHang k s = false) :
    agentTurn s.turn s = hold s := by
  obtain ⟨ht, hh⟩ | ⟨k, ht, hk⟩ := h
  · rw [ht]
    exact hostTurn_eq_hold hf hh
  · rw [ht]
    exact controllerTurn_eq_hold hk

/-- A turn that ends in a fault is a step that ends in it (the companion of `stepBy_of_turn`). -/
theorem stepBy_of_turn_fault {s : State} {r : Fault} (sched : Nat → Turn) (hf : s.faults = [])
    (h : agentTurn s.turn s = .fault r) : stepBy sched s = .fault r := by
  simp [stepBy, hf, h, Result.map]

/-- Settles O15: the agent's turn is a hold, and a hold either leaves the state for the next choice or is stuck. -/
theorem agentWithoutStepHolds : Obligations.AgentWithoutStepHolds := by
  intro s hf hno
  have hturn : agentTurn s.turn s = hold s := agentTurn_eq_hold hf hno
  constructor
  · intro hany
    exact step_of_turn hf (hturn.trans (hold_of_anyEnabled hany))
  · intro hnone
    exact stepBy_of_turn_fault Config.schedule hf (hturn.trans (hold_of_not_anyEnabled hnone))

end Sys2Proof.Machine
end

section
/-! PROOFS. What a step can do to the block and to host RAM, beyond the laws: the effect of each of the controller's
steps (R180 to R188), the frames of an access (R144 to R159), and how the host goes on. -/

namespace Sys2Proof.Machine

/-! The controller's steps. -/

/-- What every completion does (R183 to R185): DONE is set, no command is in flight, and the bus is not gained. -/
structure Completes (s t : State) : Prop where
  busy : t.busy = s.busy
  done : t.done = true
  own : t.own = true → s.own = true
  inflight : t.inflight = none
  hung : t.hung = s.hung
  prescale : t.prescale = s.prescale
  prescaleSet : t.prescaleSet = s.prescaleSet
  settled : t.settled = s.settled
  faults : t.faults = s.faults
  history : t.history = s.history ∨ ∃ e, t.history = s.history ++ [e]
  memory : t.memory = s.memory

theorem Completes.drew {s t : State} (h : Completes s t) (n : Nat) : Completes s (t.drew n) := by
  obtain ⟨⟩ := h
  constructor <;> assumption

theorem completes_completeWrByte (b : Byte) (o : TxOutcome) (s : State) : Completes s (completeWrByte b o s) := by
  cases o <;> constructor <;> simp [completeWrByte]

theorem completes_completeRdByte (k : Bool) (a : RxAnswer) (junk : Byte) (draw : Bool) (s : State) :
    Completes s (completeRdByte k a junk draw s) := by
  cases a <;> constructor <;> simp [completeRdByte]

theorem completes_completeStop (o : StopOutcome) (s : State) : Completes s (completeStop o s) := by
  cases ho : s.own <;> cases o <;> constructor <;> simp [completeStop, ho]

/-- Everything an enabled step of the controller can do. -/
inductive ControllerEffect (s : State) : ControllerStep → State → Prop where
  | completion (k : ControllerStep) (t : State) (hin : s.inflight.isSome = true) (hh : s.hung = false)
      (h : Completes s t) : ControllerEffect s k t
  | release (hin : s.inflight = none) (ho : s.own = false) : ControllerEffect s .release (releaseBus s)
  | hang (hin : s.inflight.isSome = true) : ControllerEffect s .hang (hang s)
  | settle (hp : s.prescaleSet = true) : ControllerEffect s .settle (settle s)

/-- The inversion of `controllerStep`. -/
theorem controllerStep_effect {h : Bool} {k : ControllerStep} {s : State} (he : enabled h k s = true) :
    ControllerEffect s k (controllerStep k s) := by
  cases k with
  | completeWrByte =>
    obtain ⟨-, hc, hh⟩ : s.faults = [] ∧ s.inflight.any Cmd.isWrByte = true ∧ s.hung = false := by
      simpa [enabled] using he
    exact .completion _ _ (Option.isSome_of_any hc) hh ((completes_completeWrByte _ _ s).drew 1)
  | completeRdByte =>
    obtain ⟨-, hc, hh⟩ : s.faults = [] ∧ s.inflight.any Cmd.isRdByte = true ∧ s.hung = false := by
      simpa [enabled] using he
    exact .completion _ _ (Option.isSome_of_any hc) hh ((completes_completeRdByte _ _ _ _ s).drew 1)
  | completeStop =>
    obtain ⟨-, hc, hh⟩ : s.faults = [] ∧ s.inflight.any Cmd.isStop = true ∧ s.hung = false := by
      simpa [enabled] using he
    refine .completion _ _ (Option.isSome_of_any hc) hh ?_
    simp only [controllerStep]
    split
    · exact (completes_completeStop _ s).drew 1
    · exact completes_completeStop _ s
  | release =>
    obtain ⟨-, ⟨hin, ho⟩, -⟩ : s.faults = [] ∧ (s.inflight = none ∧ s.own = false) ∧ s.busy = true := by
      simpa [enabled] using he
    exact .release hin ho
  | hang =>
    obtain ⟨-, ⟨-, hin⟩, -⟩ : s.faults = [] ∧ (h = true ∧ s.inflight.isSome = true) ∧ s.hung = false := by
      simpa [enabled] using he
    exact .hang hin
  | settle =>
    obtain ⟨-, hp, -⟩ : s.faults = [] ∧ s.prescaleSet = true ∧ s.settled = false := by
      simpa [enabled] using he
    exact .settle hp

/-- The controller does not touch host RAM. -/
theorem ControllerEffect.memory {k : ControllerStep} {s t : State} (h : ControllerEffect s k t) :
    t.memory = s.memory := by
  cases h with
  | completion _ _ _ _ h => exact h.memory
  | release => rfl
  | hang => rfl
  | settle => rfl

/-! Register accesses. -/

/-- A register access touches neither the host's side but its variable, nor host RAM. -/
theorem ExecEffect.host {i : Instr} {s u : State} (h : ExecEffect s i u) :
    u.program = s.program ∧ u.driver = s.driver ∧ u.memory = s.memory := by
  cases h <;> exact ⟨rfl, rfl, rfl⟩

/-- BUSY changes in one access alone: the WRBYTE that generates a START condition (R145). -/
theorem ExecEffect.busy {i : Instr} {s u : State} (h : ExecEffect s i u) :
    u.busy = s.busy ∨ (s.own = false ∧ u = s.startCondition.issue (.wrByte true)) := by
  cases h with
  | sendStart _ _ _ _ ho _ => exact .inr ⟨ho, rfl⟩
  | _ => exact .inl rfl

/-- PRESCALE changes in PRESCALE.WRITE alone, under its check (R158). -/
theorem ExecEffect.prescale {i : Instr} {s u : State} (h : ExecEffect s i u) :
    (u.prescale = s.prescale ∧ u.prescaleSet = s.prescaleSet) ∨ (s.inflight = none ∧ s.own = false) := by
  cases h with
  | prescaleWrite _ hin ho => exact .inr ⟨hin, ho⟩
  | _ => exact .inl ⟨rfl, rfl⟩

/-- An access adds a START to the history or nothing, and what adds one records no fault (R145, R267). -/
theorem ExecEffect.history {i : Instr} {s u : State} (h : ExecEffect s i u) :
    u.history = s.history ∨ (u.history = s.history ++ [.start] ∧ u.faults = s.faults) := by
  cases h with
  | sendStart => exact .inr ⟨rfl, rfl⟩
  | _ => exact .inl rfl

/-! How the host goes on. -/

/-- After a fault the host stays where it is (log 19). -/
theorem hostAdvance_of_fault {s : State} (h : s.faults ≠ []) : hostAdvance s = s := by
  simp [hostAdvance, h]

theorem hostAdvance_of_program {s : State} (h : s.faults = []) (hd : s.driver = none) :
    hostAdvance s = { s with program := s.program.tail } := by
  simp [hostAdvance, h, hd]

theorem hostAdvance_of_driver {s : State} {a : Activation} (h : s.faults = []) (hd : s.driver = some a) :
    hostAdvance s = { s with driver := some (a.next s.loaded) } := by
  simp [hostAdvance, h, hd]

theorem hostAdvance_memory (s : State) : (hostAdvance s).memory = s.memory := by
  obtain h | ⟨-, ⟨a, -, h⟩ | ⟨-, h⟩⟩ := hostAdvance_cases s <;> rw [h]

end Sys2Proof.Machine
end

section
/-! PROOFS. Host RAM stays in its canonical form in every step (R85): every operation that writes it does so through
`Memory.write`. -/

namespace Sys2Proof.Machine

theorem registerAccess_memory {d : Descriptor} {s t : State} (h : registerAccess d s = .next t) :
    t.memory = s.memory := by
  obtain ⟨i, u, -, he, rfl⟩ := registerAccess_next h
  obtain ⟨-, -, hm⟩ := (exec_effect he).host
  exact (hostAdvance_memory _).trans hm

theorem wf_ramAccess {a : HostAccess} {s t : State} (h : ramAccess a s = .next t)
    (hw : Memory.wf s.memory = true) : Memory.wf t.memory = true := by
  obtain ⟨-, ⟨-, rfl⟩ | ⟨-, v, n, rfl⟩⟩ := ramAccess_cases h
  · exact wf_ramStore _ _ _ _ hw
  · exact hw

theorem wf_memoryAccess {base : Nat} {a : HostAccess} {s t : State} (h : memoryAccess base a s = .next t)
    (hw : Memory.wf s.memory = true) : Memory.wf t.memory = true := by
  obtain ⟨d, -, hr⟩ | ⟨-, rfl⟩ | ⟨-, u, hu, rfl⟩ := memoryAccess_next h
  · rwa [registerAccess_memory hr]
  · exact hw
  · rw [hostAdvance_memory]
    exact wf_ramAccess hu hw

theorem wf_hostTurn {s t : State} (h : hostTurn s = .next t) (hw : Memory.wf s.memory = true) :
    Memory.wf t.memory = true := by
  cases hostTurn_effect h with
  | hold => exact hw
  | register d _ _ hr => rwa [registerAccess_memory hr]
  | memory a _ _ hm => exact wf_memoryAccess hm hw
  | delaySettle => rwa [hostAdvance_memory]
  | begin c => exact wf_beginCall c s hw
  | ret r => exact hw

theorem wf_controllerTurn {k : ControllerStep} {s t : State} (h : controllerTurn k s = .next t)
    (hw : Memory.wf s.memory = true) : Memory.wf t.memory = true := by
  obtain ⟨he, rfl⟩ | rfl := controllerTurn_cases h
  · rwa [(controllerStep_effect he).memory]
  · exact hw

theorem wf_step {s t : State} (h : step s = .next t) (hw : Memory.wf s.memory = true) :
    Memory.wf t.memory = true := by
  obtain ⟨-, u, hu, rfl⟩ := step_next h
  rw [choose_memory]
  cases ht : s.turn with
  | host =>
    rw [ht] at hu
    exact wf_hostTurn hu hw
  | controller k =>
    rw [ht] at hu
    exact wf_controllerTurn hu hw

end Sys2Proof.Machine
end

section
/-! PROOFS. The block's invariant: each effect on the block keeps it (R34, R41 to R44, R142 to R158, R183 to R188). -/

namespace Sys2Proof.Machine

/-- The invariant speaks of the block's record and of host RAM alone. -/
theorem BlockInvariant.of_sameBlock {s t : State} (hi : BlockInvariant s) (h : SameBlock s t)
    (hw : Memory.wf t.memory = true) : BlockInvariant t where
  owned_busy := by simpa [h.own, h.busy] using hi.owned_busy
  owned_configured := by
    simpa [Configured, h.own, h.prescale, h.prescaleSet, h.settled] using hi.owned_configured
  inflight_configured := by
    simpa [Configured, h.inflight, h.prescale, h.prescaleSet, h.settled] using hi.inflight_configured
  inflight_flags := by simpa [h.inflight, h.done, h.error, h.arbLost, h.ack] using hi.inflight_flags
  sending_owned := by simpa [h.inflight, h.own, h.data] using hi.sending_owned
  receiving_owned := by simpa [h.inflight, h.own] using hi.receiving_owned
  hung_inflight := by simpa [h.hung, h.inflight] using hi.hung_inflight
  settled_set := by simpa [h.settled, h.prescaleSet] using hi.settled_set
  one_fault := by simpa [h.faults] using hi.one_fault
  memory_wf := hw

section
variable {s : State} (hi : BlockInvariant s)
include hi

/-- A recorded reason is the first one (R267). -/
theorem BlockInvariant.recordFault (hf : s.faults = []) (r : FaultReason) : BlockInvariant (s.recordFault r) :=
  { hi with one_fault := by simp [hf] }

/-- A START condition on a configured block (R145). -/
theorem BlockInvariant.startCondition (hc : Configured s) : BlockInvariant s.startCondition :=
  { hi with
    owned_busy := fun _ => rfl
    owned_configured := fun _ => hc
    sending_owned := fun h => ⟨rfl, (hi.sending_owned h).2⟩
    receiving_owned := fun _ => rfl }

/-- Issuing a command that finds what its row checks (R142, R145 to R148). -/
theorem BlockInvariant.issue {c : Cmd} (hc : Configured s)
    (hsend : c.isWrByte = true → s.own = true ∧ s.data.isSome = true) (hrecv : c.isRdByte = true → s.own = true) :
    BlockInvariant (s.issue c) :=
  { hi with
    inflight_configured := fun _ => hc
    inflight_flags := fun _ => ⟨rfl, rfl, rfl, rfl⟩
    sending_owned := hsend
    receiving_owned := hrecv
    hung_inflight := fun _ => rfl }

theorem BlockInvariant.dataWrite (b : Byte) : BlockInvariant { s with data := some b } :=
  { hi with sending_owned := fun h => ⟨(hi.sending_owned h).1, rfl⟩ }

/-- PRESCALE changes where nothing rests on it (R158). -/
theorem BlockInvariant.prescaleWrite (v : Word) (hin : s.inflight = none) (ho : s.own = false) :
    BlockInvariant { s with prescale := v, prescaleSet := true, settled := false } :=
  { hi with
    owned_configured := by simp [ho]
    inflight_configured := by simp [hin]
    settled_set := fun _ => rfl }

/-- Every register access keeps the invariant. -/
theorem ExecEffect.invariant {i : Instr} {u : State} (hf : s.faults = []) (he : ExecEffect s i u) :
    BlockInvariant u := by
  cases he with
  | fault _ r => exact hi.recordFault hf r
  | nop => exact hi
  | sendStart _ _ hc hd => exact (hi.startCondition hc).issue hc (fun _ => ⟨rfl, hd⟩) (fun _ => rfl)
  | sendNext _ _ hc hd ho => exact hi.issue hc (fun _ => ⟨ho, hd⟩) (fun _ => ho)
  | readAck _ _ hc ho => exact hi.issue hc nofun (fun _ => ho)
  | readNack _ _ hc ho => exact hi.issue hc nofun (fun _ => ho)
  | stop _ _ hc => exact hi.issue hc nofun nofun
  | read _ v => exact hi.of_sameBlock ((sameBlock_load s v).trans (sameBlock_drew _ 1)) hi.memory_wf
  | dataWrite b => exact hi.dataWrite b
  | prescaleWrite v hin ho => exact hi.prescaleWrite v hin ho

/-- A completion of a command that is not hung: what rests on a command in flight no longer does (R183 to R185). -/
theorem Completes.invariant {t : State} (h : Completes s t) (hh : s.hung = false) : BlockInvariant t where
  owned_busy ho := h.busy.trans (hi.owned_busy (h.own ho))
  owned_configured ho := by
    simpa [Configured, h.prescale, h.prescaleSet, h.settled] using hi.owned_configured (h.own ho)
  inflight_configured := by simp [h.inflight]
  inflight_flags := by simp [h.inflight]
  sending_owned := by simp [h.inflight]
  receiving_owned := by simp [h.inflight]
  hung_inflight := by simp [h.hung, hh]
  settled_set := by simpa [h.settled, h.prescaleSet] using hi.settled_set
  one_fault := by simpa [h.faults] using hi.one_fault
  memory_wf := by simpa [h.memory] using hi.memory_wf

/-- Every step of the controller keeps the invariant. -/
theorem ControllerEffect.invariant {k : ControllerStep} {t : State} (he : ControllerEffect s k t) :
    BlockInvariant t := by
  cases he with
  | completion _ _ _ hh h => exact h.invariant hi hh
  | release _ ho => exact { hi with owned_busy := by simp [ho] }
  | hang hin => exact { hi with hung_inflight := fun _ => hin }
  | settle hp =>
    have configured (hc : Configured s) : Configured (Machine.settle s) := ⟨hp, hc.2.1, rfl⟩
    exact { hi with
      owned_configured := fun h => configured (hi.owned_configured h)
      inflight_configured := fun h => configured (hi.inflight_configured h)
      settled_set := fun _ => hp }

end

/-- Settles O39: by the inversion of the step, as each of its effects on the block keeps the invariant. -/
theorem everyStepKeepsTheBlockInvariant : Obligations.EveryStepKeepsTheBlockInvariant := by
  intro s t hi h
  have hw : Memory.wf t.memory = true := wf_step h hi.memory_wf
  obtain ⟨hf, hb⟩ := step_block h
  cases hb with
  | same _ hs => exact hi.of_sameBlock hs hw
  | access i u _ _ he hs => exact (he.invariant hi hf).of_sameBlock hs hw
  | badWidth _ _ hs => exact (hi.recordFault hf .badWidth).of_sameBlock hs hw
  | controller k _ _ he hs => exact ((controllerStep_effect he).invariant hi).of_sameBlock hs hw

end Sys2Proof.Machine
end

section
/-! PROOFS. Which steps change BUSY, PRESCALE and the history (R34, R40, R45, R299). -/

namespace Sys2Proof.Machine

/-- BUSY falls in the release step alone, and no step of the controller raises it (R186). -/
theorem ControllerEffect.busy {k : ControllerStep} {s t : State} (h : ControllerEffect s k t) :
    t.busy = s.busy ∨ (t.busy = false ∧ k = .release ∧ s.own = false ∧ s.inflight = none) := by
  cases h with
  | completion _ _ _ _ h => exact .inl h.busy
  | release hin ho => exact .inr ⟨rfl, rfl, ho, hin⟩
  | hang => exact .inl rfl
  | settle => exact .inl rfl

theorem ControllerEffect.prescale {k : ControllerStep} {s t : State} (h : ControllerEffect s k t) :
    t.prescale = s.prescale ∧ t.prescaleSet = s.prescaleSet := by
  cases h with
  | completion _ _ _ _ h => exact ⟨h.prescale, h.prescaleSet⟩
  | release => exact ⟨rfl, rfl⟩
  | hang => exact ⟨rfl, rfl⟩
  | settle => exact ⟨rfl, rfl⟩

/-- A step of the controller adds at most one event, and records no fault. -/
theorem ControllerEffect.history {k : ControllerStep} {s t : State} (h : ControllerEffect s k t) :
    (t.history = s.history ∨ ∃ e, t.history = s.history ++ [e]) ∧ t.faults = s.faults := by
  cases h with
  | completion _ _ _ _ h => exact ⟨h.history, h.faults⟩
  | release => exact ⟨.inl rfl, rfl⟩
  | hang => exact ⟨.inl rfl, rfl⟩
  | settle => exact ⟨.inl rfl, rfl⟩

/-- What a step does to BUSY: nothing, the START of a WRBYTE on the host's turn, or the release (R34). -/
theorem step_busy {s t : State} (h : step s = .next t) :
    t.busy = s.busy ∨
    (s.turn = .host ∧ s.own = false ∧ SameBlock (s.startCondition.issue (.wrByte true)) t) ∨
    (t.busy = false ∧ s.turn = .controller .release ∧ s.own = false ∧ s.inflight = none) := by
  obtain ⟨-, hb⟩ := step_block h
  cases hb with
  | same _ hs => exact .inl hs.busy
  | access i u _ ht he hs =>
    obtain hu | ⟨ho, rfl⟩ := he.busy
    · exact .inl (hs.busy.trans hu)
    · exact .inr (.inl ⟨ht, ho, hs⟩)
  | badWidth _ _ hs => exact .inl hs.busy
  | controller k _ ht he hs =>
    obtain hu | ⟨hu, rfl, ho, hin⟩ := (controllerStep_effect he).busy
    · exact .inl (hs.busy.trans hu)
    · exact .inr (.inr ⟨hs.busy.trans hu, ht, ho, hin⟩)

/-- Settles O40: of the three things a step can do to BUSY, only the START raises it and only the release clears it. -/
theorem busyChangesOnlyAtStartAndRelease : Obligations.BusyChangesOnlyAtStartAndRelease := by
  refine ⟨fun s t h => ?_, fun d => ⟨rfl, rfl, rfl⟩⟩
  obtain hsame | ⟨ht, ho, hs⟩ | ⟨hfree, ht, ho, hin⟩ := step_busy h
  · simp +contextual [hsame]
  · have hbusy : t.busy = true := hs.busy
    exact ⟨fun _ _ => ⟨ht, ho, hs.own, hs.inflight, hs.history⟩, by simp [hbusy]⟩
  · exact ⟨by simp [hfree], fun _ _ => ⟨ht, ho, hin⟩⟩

/-- Settles O44: PRESCALE.WRITE alone changes PRESCALE, and its check asks for an idle block. -/
theorem prescaleChangesOnlyWhileIdle : Obligations.PrescaleChangesOnlyWhileIdle := by
  intro s t h hne
  have changed (hp : t.prescale = s.prescale ∧ t.prescaleSet = s.prescaleSet) : False :=
    hne.elim (· hp.1) (· hp.2)
  obtain ⟨-, hb⟩ := step_block h
  cases hb with
  | same _ hs => exact (changed ⟨hs.prescale, hs.prescaleSet⟩).elim
  | access i u _ ht he hs =>
    obtain ⟨hp, hset⟩ | hidle := he.prescale
    · exact (changed ⟨hs.prescale.trans hp, hs.prescaleSet.trans hset⟩).elim
    · exact ⟨ht, hidle⟩
  | badWidth _ _ hs => exact (changed ⟨hs.prescale, hs.prescaleSet⟩).elim
  | controller k _ _ he hs =>
    obtain ⟨hp, hset⟩ := (controllerStep_effect he).prescale
    exact (changed ⟨hs.prescale.trans hp, hs.prescaleSet.trans hset⟩).elim

/-- Settles O45: what adds an event, a START or a completion, records no fault. -/
theorem historyOnlyGrows : Obligations.HistoryOnlyGrows := by
  intro s t h
  obtain ⟨hf, hb⟩ := step_block h
  cases hb with
  | same _ hs => exact ⟨.inl hs.history, fun _ => hs.history⟩
  | access i u _ _ he hs =>
    rw [hs.history, hs.faults]
    obtain hu | ⟨hu, hfu⟩ := he.history
    · exact ⟨.inl hu, fun _ => hu⟩
    · exact ⟨.inr ⟨_, hu⟩, fun hne => (hne (hfu.trans hf)).elim⟩
  | badWidth _ _ hs => exact ⟨.inl hs.history, fun _ => hs.history⟩
  | controller k _ _ he hs =>
    rw [hs.history, hs.faults]
    obtain ⟨hgrows, hfu⟩ := (controllerStep_effect he).history
    exact ⟨hgrows, fun hne => (hne (hfu.trans hf)).elim⟩

end Sys2Proof.Machine
end

section
/-! PROOFS. Reset (R50), and the step on the host's turn (R48, R101). -/

namespace Sys2Proof.Machine

/-- Bits 31:5 of a STATUS word are its reserved bits (R103). -/
@[simp] theorem statusWord_reserved (u : BitVec 27) (s : State) : (statusWord u s).extractLsb' 5 27 = u := by
  apply BitVec.eq_of_getLsbD_eq
  intro i hi
  have flag (b : Bool) (pos : Nat) (hp : pos < 5) : (flagAt b pos).getLsbD (5 + i) = false := by
    rw [getLsbD_flagAt b pos _ (by omega), beq_eq_false_iff_ne.2 (by omega : 5 + i ≠ pos), Bool.false_and]
  have reserved : (u.setWidth 32 <<< 5).getLsbD (5 + i) = u.getLsbD i := by
    simp [hi, show 5 + i < 32 by omega]
  simp [statusWord, hi, reserved, flag, Config.statusBusyBit, Config.statusDoneBit, Config.statusErrorBit,
    Config.statusArbLostBit, Config.statusAckBit]

/-- Settles O10: the stored elements by the definition of reset, and the two without storage by their reads. -/
theorem resetValues : Obligations.ResetValues := by
  refine ⟨fun d => ⟨rfl, rfl, rfl, rfl, rfl, rfl, rfl, rfl, rfl, rfl, rfl, rfl, rfl, rfl, ?_, ?_⟩, _, rfl⟩
  · intro t h
    cases h
    exact statusWord_reserved _ _
  · intro t h
    cases h
    rfl

/-- Settles O12: the host's turn performs the access, which leaves the host's side for `hostAdvance` to move. -/
theorem stepRunsTheDecodedAccess : Obligations.StepRunsTheDecodedAccess := by
  intro s d i hf ht ha hd
  obtain ⟨t, he⟩ := exec_next i s
  obtain ⟨hprogram, hdriver, -⟩ := (exec_effect he).host
  have hturn : agentTurn s.turn s = .next (hostAdvance (t.logAccess d)) := by
    simp [ht, agentTurn, hostTurn, ha, registerAccess_of hd he]
  refine ⟨t, he, step_of_turn hf hturn, fun hfault => hostAdvance_of_fault hfault, ?_, ?_⟩
  · intro hok hnone
    rw [← hprogram]
    exact hostAdvance_of_program hok (hdriver.trans hnone)
  · intro a hok hsome
    exact hostAdvance_of_driver hok (hdriver.trans hsome)

end Sys2Proof.Machine
end

section
/-! PROOFS. The admission of a host access (R72). -/

namespace Sys2Proof.Machine

theorem AccessSize.bytes_pos (z : AccessSize) : 0 < z.bytes := by
  cases z <;> decide

theorem AccessSize.bytes_eq_four {z : AccessSize} : z.bytes = 4 ↔ z = .word := by
  cases z <;> decide

section
variable {base : Nat} {a : HostAccess}

/-- Inside the window, anything but a 4-byte access at a multiple of 4 is refused (R72). -/
theorem admission_of_inside (h : base ≤ a.addr ∧ a.addr < base + Config.windowSize)
    (hbad : a.size ≠ .word ∨ (a.addr - base) % 4 ≠ 0) : admission base a = .badWidth := by
  rw [admission, if_pos h]
  by_cases hs : a.size.bytes = 4
  · have hoff : (a.addr - base) % 4 ≠ 0 := hbad.resolve_left (not_not_intro (AccessSize.bytes_eq_four.1 hs))
    rw [if_neg (not_not_intro hs), if_pos hoff]
  · rw [if_pos hs]

/-- An aligned 4-byte access inside the window is admitted, with its descriptor (R72, R100). -/
theorem admission_of_aligned (h : base ≤ a.addr ∧ a.addr < base + Config.windowSize) (hs : a.size = .word)
    (hoff : (a.addr - base) % 4 = 0) :
    admission base a = .window (descriptor a.write (a.addr - base) (if a.write then a.wdata else 0#32)) := by
  rw [admission, if_pos h, if_neg (not_not_intro (AccessSize.bytes_eq_four.2 hs)), if_neg (not_not_intro hoff)]

/-- An access that begins below the window and reaches into it is refused (R72). -/
theorem admission_of_straddling (h : a.addr < base ∧ base < a.addr + a.size.bytes) :
    admission base a = .badWidth := by
  rw [admission, if_neg (fun hin => Nat.not_lt.2 hin.1 h.1), if_pos h]

/-- An access that touches no byte of the window goes to host RAM (R85). -/
theorem admission_of_outside (h : a.addr + a.size.bytes ≤ base ∨ base + Config.windowSize ≤ a.addr) :
    admission base a = .ram := by
  have hpos := a.size.bytes_pos
  rw [admission, if_neg (by omega), if_neg (by omega)]

end

/-- Settles O8: one lemma for each place an access can have against the window. -/
theorem onlyAlignedWordsAreAdmitted : Obligations.OnlyAlignedWordsAreAdmitted := by
  intro base a
  refine ⟨fun h => ⟨admission_of_inside h, fun ⟨hs, hoff⟩ => admission_of_aligned h hs hoff⟩,
    admission_of_straddling, admission_of_outside, ?_⟩
  intro s hbad
  rw [memoryAccess, hbad]
  rfl

end Sys2Proof.Machine
end

section
/-! PROOFS. Repeated STATUS reads (R77), and DATA while a byte is being sent (R81). -/

namespace Sys2Proof.Machine

/-- Bits 4:0 of a STATUS word do not depend on its reserved bits (R103). -/
theorem statusWord_flags (u v : BitVec 27) (s : State) :
    (statusWord u s).extractLsb' 0 5 = (statusWord v s).extractLsb' 0 5 := by
  apply BitVec.eq_of_getLsbD_eq
  intro i hi
  simp only [statusWord, BitVec.getLsbD_extractLsb', BitVec.getLsbD_or, Nat.zero_add, getLsbD_reserved _ i hi]

/-- Settles O25: the first read leaves every flag, so that both words differ in their reserved bits alone. -/
theorem repeatedStatusReadsAgree : Obligations.RepeatedStatusReadsAgree := by
  intro s t u hfirst hsecond
  cases hfirst
  cases hsecond
  exact ⟨statusWord_flags _ _ s, ⟨rfl, rfl, rfl, rfl⟩, rfl⟩

/-- DATA changes in DATA.WRITE alone, under its check (R155). -/
theorem ExecEffect.data {i : Instr} {s u : State} (h : ExecEffect s i u) : u.data = s.data ∨ s.inflight = none := by
  cases h with
  | dataWrite _ hin => exact .inr hin
  | _ => exact .inl rfl

theorem completeWrByte_data (b : Byte) (o : TxOutcome) (s : State) : (completeWrByte b o s).data = s.data := by
  cases o <;> rfl

theorem completeStop_data (o : StopOutcome) (s : State) : (completeStop o s).data = s.data := by
  cases ho : s.own <;> cases o <;> simp [completeStop, ho]

/-- Of the controller's steps the completion of a read alone writes DATA (R184). -/
theorem controllerStep_data {k : ControllerStep} (s : State) (hk : k ≠ .completeRdByte) :
    (controllerStep k s).data = s.data := by
  cases k with
  | completeWrByte => exact completeWrByte_data _ _ s
  | completeRdByte => exact absurd rfl hk
  | completeStop =>
    rw [controllerStep]
    split
    · exact completeStop_data _ s
    · exact completeStop_data _ s
  | release => rfl
  | hang => rfl
  | settle => rfl

/-- Settles O42: a byte in flight shuts out both writers of DATA, the DATA.WRITE and the completion of a read. -/
theorem dataIsStableWhileSending : Obligations.DataIsStableWhileSending := by
  intro s t sc h hsend
  obtain ⟨-, hb⟩ := step_block h
  cases hb with
  | same _ hs => exact hs.data
  | access i u _ _ he hs =>
    have hu : u.data = s.data := he.data.resolve_right (by simp [hsend])
    exact hs.data.trans hu
  | badWidth _ _ hs => exact hs.data
  | controller k _ _ he hs =>
    have hk : k ≠ .completeRdByte := by
      rintro rfl
      simp [enabled, hsend, Cmd.isRdByte] at he
    exact hs.data.trans (controllerStep_data s hk)

end Sys2Proof.Machine
end

section
/-! PROOFS. What a host RAM access reads and writes (R10, R85, log 12). -/

namespace Sys2Proof.Machine

/-- A store puts byte `i` of its word, counted from the low end, at its `i`-th address (log 12). -/
theorem read_ramStore_inside (n a i : Nat) (v : Word) (m : List Host.Cell) (h : i < n) :
    Memory.read (ramStore n a v m) (a + i) = some ((v >>> (8 * i)).setWidth 8) := by
  induction n generalizing a i v m with
  | zero => omega
  | succ n ih =>
    rw [ramStore]
    cases i with
    | zero =>
      rw [read_ramStore_outside _ _ _ _ _ (by omega), Memory.read_write]
      exact if_pos rfl
    | succ i =>
      have haddr : a + (i + 1) = a + 1 + i := by omega
      have hshift : v >>> (8 * (i + 1)) = v >>> 8 >>> (8 * i) := by
        rw [← BitVec.shiftRight_add, Nat.mul_succ, Nat.add_comm]
      rw [haddr, hshift]
      exact ih _ _ _ _ (by omega)

/-- Settles O46: a store inside and outside its bytes, a load, and the block left as it was by both. -/
theorem ramStoreWritesItsBytes : Obligations.RamStoreWritesItsBytes := by
  intro a s t h
  have hblock : SameBlock s t := sameBlock_ramAccess h
  refine ⟨?_, ?_, ⟨hblock.done, hblock.error, hblock.arbLost, hblock.ack⟩, hblock.busy, hblock.data, hblock.own,
    hblock.inflight, hblock.history, hblock.faults⟩
  · intro hw x
    obtain ⟨-, ⟨-, rfl⟩ | ⟨hr, -⟩⟩ := ramAccess_cases h
    · refine ⟨read_ramStore_outside _ _ _ _ x, fun hlow hhigh => ?_⟩
      obtain ⟨i, rfl⟩ := Nat.exists_eq_add_of_le hlow
      rw [Nat.add_sub_cancel_left]
      exact read_ramStore_inside _ _ _ _ _ (by omega)
    · simp [hw] at hr
  · intro hr x
    obtain ⟨-, ⟨hw, -⟩ | ⟨-, v, n, rfl⟩⟩ := ramAccess_cases h
    · simp [hr] at hw
    · rfl

/-- A 1-byte load of a byte that was written delivers it, and draws nothing (R85). -/
theorem ramAccess_readByteAt {addr : Nat} {b : Byte} {s : State} (hspace : addr + 1 ≤ Config.addressSpace)
    (hb : Memory.read s.memory addr = some b) :
    ramAccess (readByteAt addr) s = .next (s.load (b.setWidth 32)) := by
  have hload : ramLoad 1 addr s = (b.setWidth 32, s) := by simp [ramLoad, ramByte, hb]
  simp [ramAccess, readByteAt, AccessSize.bytes, Nat.not_lt.2 hspace, hload]

@[simp] theorem lowByte_setWidth (b : Byte) : lowByte (b.setWidth 32) = b := by
  simp [lowByte]

end Sys2Proof.Machine
end

section
/-! PROOFS. Which steps write host RAM, and where a running operation stands when it does (R85, R220 to R224). -/

namespace Sys2Proof.Machine

/-! What a step does to host RAM. -/

/-- The bytes of host RAM after the store `a` asks for. -/
def HostAccess.stored (a : HostAccess) (m : List Host.Cell) : List Host.Cell :=
  ramStore a.size.bytes a.addr a.wdata m

/-- An access at an address leaves host RAM, or is a store and performs it. -/
theorem memoryAccess_memory {base : Nat} {a : HostAccess} {s t : State} (h : memoryAccess base a s = .next t) :
    t.memory = s.memory ∨ (a.write = true ∧ t.memory = a.stored s.memory) := by
  obtain ⟨d, -, hr⟩ | ⟨-, rfl⟩ | ⟨-, u, hu, rfl⟩ := memoryAccess_next h
  · exact .inl (registerAccess_memory hr)
  · exact .inl rfl
  · rw [hostAdvance_memory]
    obtain ⟨-, ⟨hw, rfl⟩ | ⟨-, v, n, rfl⟩⟩ := ramAccess_cases hu
    · exact .inr ⟨hw, rfl⟩
    · exact .inl rfl

/-- Entering a call puts its argument in place, and does nothing else to host RAM. -/
theorem beginCall_memory (c : Call) (s : State) :
    (beginCall c s).memory = (c.placeArgument (byteAddress (Config.anyAddress s.draws)) s).memory := by
  unfold beginCall
  dsimp only
  split <;> rfl

/-- Host RAM changes in a store of the host and at the entry of a call alone. -/
theorem step_memory {s t : State} (h : step s = .next t) :
    t.memory = s.memory ∨
    (∃ a, hostAction s = .memory a ∧ a.write = true ∧ t.memory = a.stored s.memory) ∨
    ∃ c, hostAction s = .begin c := by
  obtain ⟨-, u, hu, rfl⟩ := step_next h
  rw [choose_memory]
  cases ht : s.turn with
  | host =>
    rw [ht] at hu
    cases hostTurn_effect hu with
    | hold => exact .inl rfl
    | register d _ _ hr => exact .inl (registerAccess_memory hr)
    | memory a _ ha hm => exact (memoryAccess_memory hm).imp_right fun ⟨hw, hst⟩ => .inl ⟨a, ha, hw, hst⟩
    | delaySettle => exact .inl (hostAdvance_memory s)
    | begin c ha => exact .inr (.inr ⟨c, ha⟩)
    | ret => exact .inl rfl
  | controller k =>
    rw [ht] at hu
    obtain ⟨he, rfl⟩ | rfl := controllerTurn_cases hu
    · exact .inl (controllerStep_effect he).memory
    · exact .inl rfl

/-! A running operation. -/

theorem hostAction_of_driver {s : State} {a : Activation} (h : s.driver = some a) : hostAction s = a.action := by
  simp [hostAction, h]

/-- A running operation enters no other. -/
theorem action_ne_begin (a : Activation) (c : Call) : a.action ≠ .begin c := by
  cases hp : a.pos <;> simp [Activation.action, hp]

/-- The stores of a running operation: `read` stores the byte received, `scan` the address found (R221, R224). -/
theorem action_store {a : Activation} {acc : HostAccess} (h : a.action = .memory acc) (hw : acc.write = true) :
    (a.pos = .storeByte ∧ acc = writeByteAt (a.job.buffer + a.index) a.byte) ∨
    (a.pos = .recordFound ∧ acc = writeByteAt (a.job.buffer + a.count) (a.candidate.setWidth 8)) := by
  cases hp : a.pos <;> simp only [Activation.action, hp, HostAction.memory.injEq, reduceCtorEq] at h
  case fetchByte => subst h; cases hw
  case storeByte => exact .inl ⟨rfl, h.symm⟩
  case recordFound => exact .inr ⟨rfl, h.symm⟩

/-- A byte that a 1-byte store changes is the one it stores. -/
theorem eq_of_read_writeByteAt_ne {addr x : Nat} {b : Byte} {m : List Host.Cell}
    (h : Memory.read ((writeByteAt addr b).stored m) x ≠ Memory.read m x) : x = addr := by
  have hnot : ¬ x ≠ addr := fun hx => h (read_ramStore_outside 1 addr _ m x (by omega))
  exact Decidable.not_not.1 hnot

/-- Only a `read` stands at the store of a received byte, with its index in range (R221). -/
theorem Activation.InRange.read_of_storeByte {a : Activation} (h : a.InRange) (hp : a.pos = .storeByte) :
    ∃ addr buffer len, a.job = .read addr buffer len ∧ a.index < lengthOf len := by
  cases hj : a.job with
  | read addr buffer len =>
    have hr : 0 < lengthOf len ∧ a.index < lengthOf len := by
      simpa [Activation.InRange, hj, hp, DriverPos.isTransfer, DriverPos.isReceive, Job.length] using h
    exact ⟨addr, buffer, len, rfl, hr.2⟩
  | init p => simp [Activation.InRange, hj, hp] at h
  | write addr data len => simp [Activation.InRange, hj, hp, DriverPos.isTransfer] at h
  | scan found maxFound => simp [Activation.InRange, hj, hp, DriverPos.isTransfer] at h

/-- Only a `scan` stands at the record of an address, with room for it (R224). -/
theorem Activation.InRange.scan_of_recordFound {a : Activation} (h : a.InRange) (hp : a.pos = .recordFound) :
    ∃ found maxFound, a.job = .scan found maxFound ∧ a.count < lengthOf maxFound := by
  cases hj : a.job with
  | scan found maxFound =>
    simp only [Activation.InRange, hj] at h
    obtain ⟨-, -, -, hrun⟩ := h
    exact ⟨found, maxFound, rfl, (hrun (by simp [hp])).1⟩
  | init p => simp [Activation.InRange, hj, hp] at h
  | write addr data len => simp [Activation.InRange, hj, hp, DriverPos.isTransfer] at h
  | read addr buffer len => simp [Activation.InRange, hj, hp, DriverPos.isTransfer, DriverPos.isReceive] at h

/-- A `write` that fetches a byte has one left to fetch (R220). -/
theorem Activation.InRange.index_lt_of_fetchByte {a : Activation} {addr : DeviceAddr} {data len : Word} (h : a.InRange)
    (hj : a.job = .write addr data len) (hp : a.pos = .fetchByte) : a.index < lengthOf len := by
  simpa [Activation.InRange, hj, hp, DriverPos.isTransfer, Job.length] using h

/-- A running operation writes host RAM only in its own buffer (R85, R221, R224). -/
theorem running_write_in_buffer {s t : State} {a : Activation} {x : Nat} (hi : DriverInvariant s)
    (ha : s.driver = some a) (h : step s = .next t) (hne : Memory.read t.memory x ≠ Memory.read s.memory x) :
    (∃ addr buffer len, a.job = .read addr buffer len ∧ a.pos = .storeByte ∧ x = buffer.toNat + a.index ∧
      a.index < lengthOf len) ∨
    (∃ found maxFound, a.job = .scan found maxFound ∧ a.pos = .recordFound ∧ x = found.toNat + a.count ∧
      a.count < lengthOf maxFound) := by
  obtain ⟨hrange, -, -⟩ := hi.running a ha
  have haction := hostAction_of_driver ha
  obtain hsame | ⟨acc, hacc, hw, hst⟩ | ⟨c, hc⟩ := step_memory h
  · exact absurd (congrArg (Memory.read · x) hsame) hne
  · rw [hst] at hne
    obtain ⟨hp, rfl⟩ | ⟨hp, rfl⟩ := action_store (haction.symm.trans hacc) hw
    · obtain ⟨addr, buffer, len, hj, hlt⟩ := hrange.read_of_storeByte hp
      have hx := eq_of_read_writeByteAt_ne hne
      rw [hj] at hx
      exact .inl ⟨addr, buffer, len, hj, hp, hx, hlt⟩
    · obtain ⟨found, maxFound, hj, hlt⟩ := hrange.scan_of_recordFound hp
      have hx := eq_of_read_writeByteAt_ne hne
      rw [hj] at hx
      exact .inr ⟨found, maxFound, hj, hp, hx, hlt⟩
  · exact absurd (haction.symm.trans hc) (action_ne_begin a c)

/-! Entering a call. -/

/-- The host's turn with a call at the head of its program enters it (R114). -/
theorem step_of_call {s : State} {c : Call} {rest : List HostOp} (hf : s.faults = []) (ht : s.turn = .host)
    (hd : s.driver = none) (hprog : s.program = .call c :: rest) : step s = .next (beginCall c s).choose :=
  step_of_turn hf (by simp [ht, agentTurn, hostTurn, hostAction, hd, hprog])

/-- No other call than `write_byte` puts anything into host RAM (R222). -/
theorem beginCall_memory_of_ne_writeByte {c : Call} (s : State) (h : ∀ addr b, c ≠ .writeByte addr b) :
    (beginCall c s).memory = s.memory := by
  rw [beginCall_memory]
  cases c with
  | writeByte addr b => exact absurd rfl (h addr b)
  | _ => rfl

/-- `write_byte` runs as a `write` of the one byte at `&byte` (R222). -/
theorem beginCall_writeByte_driver (addr : DeviceAddr) (b : Byte) (s : State) :
    (beginCall (.writeByte addr b) s).driver =
      some (.start (.write addr (byteAddress (Config.anyAddress s.draws)) 1#32) .waitFree) := by
  simp only [beginCall, Call.enter, enterWrite_byteAddress]

/-! The fetch of a payload byte. -/

/-- A byte of a valid buffer is read as host RAM, inside the address space (R85, R235). -/
theorem ValidBuffer.readByteAt_ram {start len i : Nat} (h : ValidBuffer start len) (hlt : i < len) :
    start + i + 1 ≤ Config.addressSpace ∧ admission Config.i2cBase (readByteAt (start + i)) = .ram := by
  obtain ⟨hspace, hwindow⟩ := h
  exact ⟨by omega, admit_byte_outside _ _ rfl (by simp only [readByteAt]; omega)⟩

/-- `write` goes on to send the byte it reads at `data + i` (R220). -/
theorem step_of_fetchByte {s : State} {a : Activation} {b : Byte} (hf : s.faults = []) (ht : s.turn = .host)
    (ha : s.driver = some a) (hp : a.pos = .fetchByte)
    (hspace : a.job.buffer + a.index + 1 ≤ Config.addressSpace)
    (hram : admission Config.i2cBase (readByteAt (a.job.buffer + a.index)) = .ram)
    (hb : Memory.read s.memory (a.job.buffer + a.index) = some b) :
    step s = .next { s.load (b.setWidth 32) with driver := some (a.sendPayload b) }.choose := by
  have haction : hostAction s = .memory (readByteAt (a.job.buffer + a.index)) := by
    simp [hostAction_of_driver ha, Activation.action, hp]
  have hnext : a.next (b.setWidth 32) = a.sendPayload b := by simp [Activation.next, hp]
  have hadvance : hostAdvance (s.load (b.setWidth 32)) =
      { s.load (b.setWidth 32) with driver := some (a.sendPayload b) } := by
    rw [← hnext]
    exact hostAdvance_of_driver hf ha
  exact step_of_turn hf (by
    simp [ht, agentTurn, hostTurn, haction, memoryAccess, hram, ramAccess_readByteAt hspace hb, hadvance])

/-- Settles O59: the stores of a running operation, the entry of a call, and the fetch of `write`. -/
theorem operationsUseOnlyTheirBuffers : Obligations.OperationsUseOnlyTheirBuffers := by
  refine ⟨fun s t a x => running_write_in_buffer, ?_, ?_⟩
  · intro s c rest hf ht hd hprog
    refine ⟨_, step_of_call hf ht hd hprog, beginCall_memory_of_ne_writeByte s, ?_⟩
    rintro addr b rfl
    have hmem : (beginCall (.writeByte addr b) s).memory =
        Memory.write s.memory (byteAddress (Config.anyAddress s.draws)).toNat b := beginCall_memory _ s
    obtain ⟨hnull, hvalid⟩ := byteAddress_ram (Config.anyAddress s.draws)
    refine ⟨_, hnull, hvalid, beginCall_writeByte_driver addr b s, ?_, fun x hx => ?_⟩
    · rw [choose_memory, hmem, Memory.read_write, if_pos rfl]
    · rw [choose_memory, hmem, Memory.read_write, if_neg hx]
  · intro s a addr data len b hi ht ha hj hp hb
    obtain ⟨hrange, hbuf, -⟩ := hi.running a ha
    have hvalid : ValidBuffer data.toNat (lengthOf len) := by simpa [Job.ValidBuffers, hj] using hbuf
    obtain ⟨hspace, hram⟩ := hvalid.readByteAt_ram (hrange.index_lt_of_fetchByte hj hp)
    have hbuffer : a.job.buffer = data.toNat := by simp [hj, Job.buffer]
    rw [← hbuffer] at hspace hram hb
    exact ⟨_, step_of_fetchByte hi.no_fault ht ha hp hspace hram hb, rfl, rfl⟩

end Sys2Proof.Machine
end

section
/-! PROOFS. The decoder against the encoder (R100, R101, R108): which words each write row takes, which descriptors
decode at all, and the round trip from both sides. -/

namespace Sys2Proof

/-! The words of a CTRL and of a DATA write. -/

/-- A CTRL word with a reserved bit set is taken by the catch-all row (R108). -/
theorem decodeCtrlWrite_of_reserved {v : Word} (h : ctrlReserved v ≠ 0#28) : decodeCtrlWrite v = .ctrlRsvBits v := by
  simp [decodeCtrlWrite, h]

/-- A DATA word with a reserved bit set is taken by the catch-all row (R156). -/
theorem decodeDataWrite_of_reserved {v : Word} (h : dataReserved v ≠ 0#24) : decodeDataWrite v = .dataWriteRsv v := by
  simp [decodeDataWrite, h]

/-- A word whose high bits are 0 is its low bits. -/
theorem eq_low_of_high_eq_zero {v : Word} {k n : Nat} (hkn : k + n = 32) (h : v.extractLsb' k n = 0#n) :
    v = (v.extractLsb' 0 k).setWidth 32 := by
  apply BitVec.eq_of_getLsbD_eq
  intro i hi
  by_cases hk : i < k
  · simp [hi, hk]
  · have hbit : (v.extractLsb' k n).getLsbD (i - k) = false := by rw [h, BitVec.getLsbD_zero]
    rw [BitVec.getLsbD_extractLsb', show k + (i - k) = i by omega] at hbit
    simpa [hk, show i - k < n by omega] using hbit

/-- A CTRL word without a reserved bit is made of its four flags (R102). -/
theorem eq_ctrlWord_of_unreserved {v : Word} (h : ctrlReserved v = 0#28) :
    ∃ start stop read ackEn, v = ctrlWord start stop read ackEn := by
  have hflags : ∀ u : BitVec 4, ∃ start stop read ackEn, u.setWidth 32 = ctrlWord start stop read ackEn := by decide
  rw [eq_low_of_high_eq_zero (k := 4) rfl h]
  exact hflags _

/-- A DATA word without a reserved bit is a byte (R104). -/
theorem eq_byte_of_unreserved {v : Word} (h : dataReserved v = 0#24) : ∃ b : Byte, v = b.setWidth 32 :=
  ⟨_, eq_low_of_high_eq_zero (k := 8) rfl h⟩

/-- What a CTRL write decodes to is well-formed, and encodes to that write. -/
theorem encode_decodeCtrlWrite (v : Word) :
    (decodeCtrlWrite v).wf = true ∧ encode (decodeCtrlWrite v) = descriptor true Config.offCtrl v := by
  by_cases h : ctrlReserved v = 0#28
  · have hflags : ∀ start stop read ackEn, (decodeCtrlWrite (ctrlWord start stop read ackEn)).wf = true ∧
        encode (decodeCtrlWrite (ctrlWord start stop read ackEn)) =
          descriptor true Config.offCtrl (ctrlWord start stop read ackEn) := by decide
    obtain ⟨start, stop, read, ackEn, rfl⟩ := eq_ctrlWord_of_unreserved h
    exact hflags start stop read ackEn
  · rw [decodeCtrlWrite_of_reserved h]
    exact ⟨bne_iff_ne.2 h, rfl⟩

/-- What a DATA write decodes to is well-formed, and encodes to that write. -/
theorem encode_decodeDataWrite (v : Word) :
    (decodeDataWrite v).wf = true ∧ encode (decodeDataWrite v) = descriptor true Config.offData v := by
  by_cases h : dataReserved v = 0#24
  · obtain ⟨b, rfl⟩ := eq_byte_of_unreserved h
    rw [decodeDataWrite_byte]
    exact ⟨rfl, rfl⟩
  · rw [decodeDataWrite_of_reserved h]
    exact ⟨bne_iff_ne.2 h, rfl⟩

/-! The descriptors that decode. -/

/-- The offset of one of the four registers (R70, R100). -/
def IsRegister (off : Nat) : Prop :=
  off = Config.offCtrl ∨ off = Config.offStatus ∨ off = Config.offData ∨ off = Config.offPrescale

/-- A descriptor decodes only at the offset of a register (R100). -/
theorem isRegister_of_decode {d : Descriptor} {i : Instr} (h : decode d = .ok i) : IsRegister (offsetOf d) := by
  refine Classical.byContradiction fun hno => ?_
  obtain ⟨hctrl, hstatus, hdata, hprescale⟩ : offsetOf d ≠ Config.offCtrl ∧ offsetOf d ≠ Config.offStatus ∧
      offsetOf d ≠ Config.offData ∧ offsetOf d ≠ Config.offPrescale := by
    simpa only [IsRegister, not_or] using hno
  simp [decode, hctrl, hstatus, hdata, hprescale] at h

/-- An access of a register decodes to a well-formed instruction, which encodes to that access if it is a write, or a
read of R100, whose WDATA is 0. -/
theorem decode_of_isRegister (w : Bool) {off : Nat} (v : Word) (h : IsRegister off) :
    ∃ i, decode (descriptor w off v) = .ok i ∧ i.wf = true ∧
      (w = true ∨ v = 0#32 → encode i = descriptor w off v) := by
  cases w with
  | true =>
    obtain rfl | rfl | rfl | rfl := h
    · obtain ⟨hwf, henc⟩ := encode_decodeCtrlWrite v
      exact ⟨_, decode_ctrl true v, hwf, fun _ => henc⟩
    · exact ⟨_, decode_status true v, rfl, fun _ => rfl⟩
    · obtain ⟨hwf, henc⟩ := encode_decodeDataWrite v
      exact ⟨_, decode_data true v, hwf, fun _ => henc⟩
    · exact ⟨_, decode_prescale true v, rfl, fun _ => rfl⟩
  | false =>
    rw [or_iff_right Bool.false_ne_true]
    obtain rfl | rfl | rfl | rfl := h
    · exact ⟨_, decode_ctrl false v, rfl, by rintro rfl; rfl⟩
    · exact ⟨_, decode_status false v, rfl, by rintro rfl; rfl⟩
    · exact ⟨_, decode_data false v, rfl, by rintro rfl; rfl⟩
    · exact ⟨_, decode_prescale false v, rfl, by rintro rfl; rfl⟩

/-- Settles O4: a descriptor that decodes is an access of a register, and is made of its fields. -/
theorem encodeOfDecodeIsTheDescriptor : Obligations.EncodeOfDecodeIsTheDescriptor := by
  intro d i hd
  obtain ⟨j, hj, hwf, henc⟩ := decode_of_isRegister (isWrite d) (wdataOf d) (isRegister_of_decode hd)
  rw [descriptor_fields] at hj henc
  obtain rfl : i = j := Except.ok.inj (hd.symm.trans hj)
  exact ⟨hwf, henc⟩

/-- A store of flags to CTRL is left to the CTRL decoder, whose table is `decodeCtrlWrite_ctrlWord`. -/
theorem decode_store_ctrlWord (start stop read ackEn : Bool) :
    decode (storeDescriptor Config.offCtrl (ctrlWord start stop read ackEn)) =
      .ok (decodeCtrlWrite (ctrlWord start stop read ackEn)) :=
  decode_ctrl true _

/-- Settles O3, row by row: each row's word is one its register's decoder gives back. -/
theorem decodeOfEncodeIsTheInstruction : Obligations.DecodeOfEncodeIsTheInstruction := by
  intro i hwf
  cases i with
  | ctrlNop | ctrlWrbyte | ctrlStop | ctrlRdbyteAck | ctrlRdbyteNack | ctrlRsvStopStart | ctrlRsvStopRead =>
    rw [encode, decode_store_ctrlWord, decodeCtrlWrite_ctrlWord]
    rfl
  | ctrlRsvBits v =>
    exact (decode_ctrl true v).trans (congrArg _ (decodeCtrlWrite_of_reserved (bne_iff_ne.1 hwf)))
  | ctrlRead => exact decode_ctrl false 0#32
  | statusRead => exact decode_status false 0#32
  | statusWrite v => exact decode_status true v
  | dataWrite b => exact (decode_data true _).trans (congrArg _ (decodeDataWrite_byte b))
  | dataWriteRsv v =>
    exact (decode_data true v).trans (congrArg _ (decodeDataWrite_of_reserved (bne_iff_ne.1 hwf)))
  | dataRead => exact decode_data false 0#32
  | prescaleWrite v => exact decode_prescale true v
  | prescaleRead => exact decode_prescale false 0#32

end Sys2Proof
end

section
/-! PROOFS. The opcode table (R101, R115): a row looks at the direction, at the offset and at WDATA under its mask, so
that a lookup goes through the rows of one register and direction. -/

namespace Sys2Proof

/-- Two rows that both take a descriptor agree where both masks look. -/
theorem TableRow.agree_of_accepts {p q : TableRow} {d : Descriptor} (hp : p.accepts d = true)
    (hq : q.accepts d = true) : p.pattern &&& q.mask = q.pattern &&& p.mask := by
  rw [TableRow.accepts, beq_iff_eq] at hp hq
  rw [← hp, ← hq, BitVec.and_assoc, BitVec.and_assoc, BitVec.and_comm p.mask]

/-- Settles O6: any two rows of priority 1 differ at a bit that both masks look at. -/
theorem priorityOneRowsAreDisjoint : Obligations.PriorityOneRowsAreDisjoint := by
  have hdiffer : (opcodeTable.filter (·.priority == 1)).Pairwise fun p q =>
      p.pattern &&& q.mask ≠ q.pattern &&& p.mask := by decide
  exact hdiffer.imp fun hne d ⟨hp, hq⟩ => hne (TableRow.agree_of_accepts hp hq)

/-! The fields of a masked descriptor. -/

theorem isWrite_and (d m : Descriptor) : isWrite (d &&& m) = (isWrite d && isWrite m) :=
  BitVec.getLsbD_and

theorem offsetOf_and (d m : Descriptor) : offsetOf (d &&& m) = offsetOf d &&& offsetOf m := by
  rw [offsetOf, BitVec.extractLsb'_and, BitVec.toNat_and, offsetOf, offsetOf]

theorem wdataOf_and (d m : Descriptor) : wdataOf (d &&& m) = wdataOf d &&& wdataOf m :=
  BitVec.extractLsb'_and

theorem descriptor_ext_iff {d e : Descriptor} :
    d = e ↔ isWrite d = isWrite e ∧ offsetOf d = offsetOf e ∧ wdataOf d = wdataOf e := by
  refine ⟨by rintro rfl; exact ⟨rfl, rfl, rfl⟩, fun ⟨hw, hoff, hv⟩ => ?_⟩
  rw [← descriptor_fields d, hw, hoff, hv, descriptor_fields]

/-- The row's direction and offset are these. -/
def TableRow.isAt (w : Bool) (off : Nat) (r : TableRow) : Bool := w == isWrite r.pattern && off == offsetOf r.pattern

/-- The row takes the word under its mask. -/
def TableRow.takes (v : Word) (r : TableRow) : Bool := v &&& wdataOf r.mask == wdataOf r.pattern

/-- A row whose mask looks at all of W and OFF takes its own direction and offset, and there it tests the word. -/
theorem TableRow.accepts_eq {r : TableRow} (hw : isWrite r.mask = true) (hoff : offsetOf r.mask = 127)
    (d : Descriptor) : r.accepts d = (r.isAt (isWrite d) (offsetOf d) && r.takes (wdataOf d)) := by
  have hlow : offsetOf d &&& 127 = offsetOf d :=
    (Nat.and_two_pow_sub_one_eq_mod _ 7).trans (Nat.mod_eq_of_lt (BitVec.isLt _))
  rw [Bool.eq_iff_iff, TableRow.accepts, beq_iff_eq, descriptor_ext_iff, isWrite_and, offsetOf_and, wdataOf_and, hw,
    hoff, hlow, Bool.and_true]
  simp [TableRow.isAt, TableRow.takes, and_assoc]

/-- The rows of one direction and offset, in ascending priority. -/
def rowsAt (w : Bool) (off : Nat) : List TableRow := rowsByPriority.filter (TableRow.isAt w off)

/-- The lookup is one in the rows of the descriptor's direction and offset, by its word. -/
theorem tableMnemonic_eq (d : Descriptor) :
    tableMnemonic d = ((rowsAt (isWrite d) (offsetOf d)).find? (TableRow.takes (wdataOf d))).map (·.mnemonic) := by
  have hmasks : ∀ r ∈ rowsByPriority, isWrite r.mask = true ∧ offsetOf r.mask = 127 := by decide
  have hfilter : rowsByPriority.filter (·.accepts d) = rowsByPriority.filter fun r =>
      r.takes (wdataOf d) && r.isAt (isWrite d) (offsetOf d) := by
    refine List.filter_congr fun r hr => ?_
    obtain ⟨hw, hoff⟩ := hmasks r hr
    rw [TableRow.accepts_eq hw hoff, Bool.and_comm]
  rw [tableMnemonic, rowsAt, ← List.head?_filter, ← List.head?_filter, List.filter_filter, hfilter]

theorem tableMnemonic_descriptor (w : Bool) {off : Nat} (v : Word) (h : off < 128) :
    tableMnemonic (descriptor w off v) = ((rowsAt w off).find? (TableRow.takes v)).map (·.mnemonic) := by
  rw [tableMnemonic_eq, isWrite_descriptor, offsetOf_descriptor w off v h, wdataOf_descriptor]

/-- No row has an offset that is no register's. -/
theorem rowsAt_eq_nil {off : Nat} (w : Bool) (h : ¬IsRegister off) : rowsAt w off = [] := by
  have hrows : ∀ r ∈ rowsByPriority, IsRegister (offsetOf r.pattern) := by
    unfold IsRegister
    decide
  rw [rowsAt, List.filter_eq_nil_iff]
  intro r hr hat
  obtain ⟨-, hoff⟩ : w = isWrite r.pattern ∧ off = offsetOf r.pattern := by simpa [TableRow.isAt] using hat
  exact h (hoff ▸ hrows r hr)

/-- A row whose mask looks at no bit of WDATA takes every word. -/
theorem TableRow.takes_of_mask_eq_zero {r : TableRow} (hm : wdataOf r.mask = 0#32) (hp : wdataOf r.pattern = 0#32)
    (v : Word) : r.takes v = true := by
  rw [TableRow.takes, hm, hp, BitVec.and_zero, beq_self_eq_true]

/-- A word with a high bit set is refused by a row that asks for all of them to be 0. -/
theorem TableRow.takes_eq_false {r : TableRow} {v : Word} {k n : Nat} (h : v.extractLsb' k n ≠ 0#n)
    (hm : (wdataOf r.mask).extractLsb' k n = BitVec.allOnes n) (hp : (wdataOf r.pattern).extractLsb' k n = 0#n) :
    r.takes v = false := by
  rw [TableRow.takes, beq_eq_false_iff_ne]
  intro heq
  have hhigh := congrArg (BitVec.extractLsb' k n) heq
  rw [BitVec.extractLsb'_and, hm, hp, BitVec.and_allOnes] at hhigh
  exact h hhigh

/-! The lookup at each register. -/

/-- The lookup answers the first row of the direction and offset if it takes the word. -/
theorem tableMnemonic_of_head {w : Bool} {off : Nat} (r : TableRow) {rows : List TableRow} {v : Word}
    (hoff : off < 128) (hrows : rowsAt w off = r :: rows) (h : r.takes v = true) :
    tableMnemonic (descriptor w off v) = some r.mnemonic := by
  rw [tableMnemonic_descriptor w v hoff, hrows, List.find?_cons_of_pos h]
  rfl

/-- Where the table has one row, and its mask looks at no bit of WDATA, the lookup answers that row. -/
theorem tableMnemonic_of_only {w : Bool} {off : Nat} (r : TableRow) (hoff : off < 128) (hrows : rowsAt w off = [r])
    (hm : wdataOf r.mask = 0#32) (hp : wdataOf r.pattern = 0#32) (v : Word) :
    tableMnemonic (descriptor w off v) = some r.mnemonic :=
  tableMnemonic_of_head r hoff hrows (TableRow.takes_of_mask_eq_zero hm hp v)

/-- Where the rows but the last ask for the high bits of WDATA to be 0, the last one, which asks for nothing, is the
catch-all of the words with one of them set. -/
theorem tableMnemonic_of_catchAll {w : Bool} {off k n : Nat} (r : TableRow) {rows : List TableRow} {v : Word}
    (hoff : off < 128) (hrows : rowsAt w off = rows ++ [r])
    (hhigh : ∀ q ∈ rows, (wdataOf q.mask).extractLsb' k n = BitVec.allOnes n ∧
      (wdataOf q.pattern).extractLsb' k n = 0#n)
    (hm : wdataOf r.mask = 0#32) (hp : wdataOf r.pattern = 0#32) (h : v.extractLsb' k n ≠ 0#n) :
    tableMnemonic (descriptor w off v) = some r.mnemonic := by
  have hnone : rows.find? (TableRow.takes v) = none := by
    rw [List.find?_eq_none]
    intro q hq
    rw [TableRow.takes_eq_false h (hhigh q hq).1 (hhigh q hq).2]
    exact Bool.false_ne_true
  rw [tableMnemonic_descriptor w v hoff, hrows, List.find?_append, hnone, Option.none_or,
    List.find?_cons_of_pos (TableRow.takes_of_mask_eq_zero hm hp v)]
  rfl

theorem tableMnemonic_ctrlWrite (v : Word) :
    tableMnemonic (descriptor true Config.offCtrl v) = some (decodeCtrlWrite v).mnemonic := by
  by_cases h : ctrlReserved v = 0#28
  · obtain ⟨start, stop, read, ackEn, rfl⟩ := eq_ctrlWord_of_unreserved h
    rw [tableMnemonic_descriptor _ _ (by decide)]
    cases start <;> cases stop <;> cases read <;> cases ackEn <;> rfl
  · rw [decodeCtrlWrite_of_reserved h]
    exact tableMnemonic_of_catchAll (rows := (rowsAt true Config.offCtrl).take 7)
      ⟨"CTRL.RSV_BITS", 0x8000000000#40, 0xFF00000000#40, 9⟩ (by decide) rfl (by decide) rfl rfl h

/-- The mask of bits 31:8 leaves nothing of a byte. -/
theorem byte_and_high (b : Byte) : b.setWidth 32 &&& BitVec.allOnes 32 <<< 8 = 0#32 := by
  apply BitVec.eq_of_getLsbD_eq
  intro i hi
  rw [BitVec.getLsbD_and, BitVec.getLsbD_shiftLeft, BitVec.getLsbD_zero]
  by_cases hlow : i < 8
  · simp [hlow]
  · simp [BitVec.getLsbD_of_ge b i (by omega)]

theorem tableMnemonic_dataWrite (v : Word) :
    tableMnemonic (descriptor true Config.offData v) = some (decodeDataWrite v).mnemonic := by
  by_cases h : dataReserved v = 0#24
  · obtain ⟨b, rfl⟩ := eq_byte_of_unreserved h
    rw [decodeDataWrite_byte]
    exact tableMnemonic_of_head ⟨"DATA.WRITE", 0x8800000000#40, 0xFFFFFFFF00#40, 1⟩ (by decide) rfl
      (beq_iff_eq.2 (byte_and_high b))
  · rw [decodeDataWrite_of_reserved h]
    exact tableMnemonic_of_catchAll (rows := (rowsAt true Config.offData).take 1)
      ⟨"DATA.WRITE_RSV", 0x8800000000#40, 0xFF00000000#40, 9⟩ (by decide) rfl (by decide) rfl rfl h

/-- The lookup on an access of a register answers the row of the instruction it decodes to. -/
theorem tableMnemonic_of_isRegister (w : Bool) {off : Nat} (v : Word) (h : IsRegister off) {i : Instr}
    (hd : decode (descriptor w off v) = .ok i) : tableMnemonic (descriptor w off v) = some i.mnemonic := by
  cases w with
  | true =>
    obtain rfl | rfl | rfl | rfl := h
    · cases (decode_ctrl true v).symm.trans hd
      exact tableMnemonic_ctrlWrite v
    · cases (decode_status true v).symm.trans hd
      exact tableMnemonic_of_only ⟨"STATUS.WRITE", 0x8400000000#40, 0xFF00000000#40, 1⟩ (by decide) rfl rfl rfl v
    · cases (decode_data true v).symm.trans hd
      exact tableMnemonic_dataWrite v
    · cases (decode_prescale true v).symm.trans hd
      exact tableMnemonic_of_only ⟨"PRESCALE.WRITE", 0x8C00000000#40, 0xFF00000000#40, 1⟩ (by decide) rfl rfl rfl v
  | false =>
    obtain rfl | rfl | rfl | rfl := h
    · cases (decode_ctrl false v).symm.trans hd
      exact tableMnemonic_of_only ⟨"CTRL.READ", 0x0000000000#40, 0xFF00000000#40, 1⟩ (by decide) rfl rfl rfl v
    · cases (decode_status false v).symm.trans hd
      exact tableMnemonic_of_only ⟨"STATUS.READ", 0x0400000000#40, 0xFF00000000#40, 1⟩ (by decide) rfl rfl rfl v
    · cases (decode_data false v).symm.trans hd
      exact tableMnemonic_of_only ⟨"DATA.READ", 0x0800000000#40, 0xFF00000000#40, 1⟩ (by decide) rfl rfl rfl v
    · cases (decode_prescale false v).symm.trans hd
      exact tableMnemonic_of_only ⟨"PRESCALE.READ", 0x0C00000000#40, 0xFF00000000#40, 1⟩ (by decide) rfl rfl rfl v

/-- Settles O5: at a register's offset the lookup answers the row of what the decoder reads, and elsewhere there is
neither a row nor an instruction. -/
theorem decoderFollowsTheOpcodeTable : Obligations.DecoderFollowsTheOpcodeTable := by
  intro d
  cases hd : decode d with
  | ok i =>
    have htable := tableMnemonic_of_isRegister (isWrite d) (wdataOf d) (isRegister_of_decode hd) (i := i)
    rw [descriptor_fields] at htable
    exact htable hd
  | error e =>
    have hno : ¬IsRegister (offsetOf d) := by
      intro hreg
      obtain ⟨i, hi, -⟩ := decode_of_isRegister (isWrite d) (wdataOf d) hreg
      rw [descriptor_fields, hd] at hi
      cases hi
    rw [tableMnemonic_eq, rowsAt_eq_nil _ hno]
    rfl

end Sys2Proof
end

section
/-! PROOFS. An admitted access and a placed word run (R72, R101; log 7), and the written-out words of R106, R108 and
95_test_vectors.md. -/

namespace Sys2Proof.Machine

/-- Only a 4-byte access at a multiple of 4 inside the window is admitted, with its descriptor (R72, R100). -/
theorem of_admission_eq_window {base : Nat} {a : HostAccess} {d : Descriptor} (h : admission base a = .window d) :
    (a.addr - base < Config.windowSize ∧ (a.addr - base) % 4 = 0) ∧
      d = descriptor a.write (a.addr - base) (if a.write then a.wdata else 0#32) := by
  by_cases hin : base ≤ a.addr ∧ a.addr < base + Config.windowSize
  · by_cases hbad : a.size ≠ .word ∨ (a.addr - base) % 4 ≠ 0
    · rw [admission_of_inside hin hbad] at h
      cases h
    · obtain ⟨hs, hoff⟩ : a.size = .word ∧ (a.addr - base) % 4 = 0 := by simpa [not_or] using hbad
      rw [admission_of_aligned hin hs hoff] at h
      cases h
      exact ⟨⟨by omega, hoff⟩, rfl⟩
  · rw [admission, if_neg hin] at h
    split at h <;> cases h

/-- The multiples of 4 in the window are the register offsets (R70). -/
theorem isRegister_of_aligned {off : Nat} (h : off < Config.windowSize ∧ off % 4 = 0) : IsRegister off := by
  simp only [Config.windowSize] at h
  simp only [IsRegister, Config.offCtrl, Config.offStatus, Config.offData, Config.offPrescale]
  omega

/-- Settles O9: the offset of an admitted access is a register's, so that it decodes, and every instruction runs. -/
theorem admittedAccessesDecode : Obligations.AdmittedAccessesDecode := by
  intro base a d hadm
  obtain ⟨haligned, rfl⟩ := of_admission_eq_window hadm
  have hwindow : a.addr - base < 128 := Nat.lt_trans haligned.1 (by decide)
  obtain ⟨i, hd, hwf, -⟩ := decode_of_isRegister a.write _ (isRegister_of_aligned haligned)
  refine ⟨isWrite_descriptor _ _ _, offsetOf_descriptor _ _ _ hwindow, i, hd, hwf, fun s => ?_⟩
  obtain ⟨t, ht⟩ := exec_next i s
  refine ⟨t, ht, ?_⟩
  rw [memoryAccess, hadm]
  exact registerAccess_of hd ht

theorem decode_of_decodeTableWord {nbits w : Nat} {i : Instr} (h : decodeTableWord nbits w = some i) :
    decode (tableDescriptor nbits w) = .ok i := by
  rw [decodeTableWord] at h
  split at h <;> cases h
  assumption

/-- Settles O13: a placed word is the access of a host whose turn it is. -/
theorem placedWordRunsNext : Obligations.PlacedWordRunsNext := by
  intro s nbits w i hf hw
  obtain ⟨t, he, hstep, -⟩ :=
    stepRunsTheDecodedAccess (s.withFetchWord nbits w) _ i hf rfl rfl (decode_of_decodeTableWord hw)
  exact ⟨t, he, hstep⟩

/-- Settles O1: the sixteen words without a reserved bit by evaluation, the others by the decoder's first test. -/
theorem ctrlWritesDecodeByTable : Obligations.CtrlWritesDecodeByTable :=
  ⟨rfl, rfl, rfl, rfl, rfl, rfl, rfl, rfl, rfl, rfl, rfl, rfl, rfl, rfl, rfl, rfl,
    fun _ h => ⟨decodeCtrlWrite_of_reserved h, fun _ => rfl⟩⟩

/-- Settles O2, by evaluation of the decoder on each written-out descriptor. -/
theorem sampleDescriptorsDecode : Obligations.SampleDescriptorsDecode :=
  ⟨rfl, rfl, rfl, rfl, rfl, rfl, rfl, rfl, rfl, rfl, rfl⟩

/-- The address byte is the concatenation `{addr[6:0], rw}` (R106). -/
theorem addrByte_eq_append (addr : DeviceAddr) (rw : Bool) : addrByte addr rw = addr ++ BitVec.ofBool rw := by
  rw [BitVec.append_def, BitVec.shiftLeftZeroExtend_eq, BitVec.setWidth'_eq, addrByte]

/-- Settles O7: a concatenation with one bit is twice the number plus that bit. -/
theorem addressByteAppendsTheDirection : Obligations.AddressByteAppendsTheDirection := by
  refine ⟨fun addr rw => ?_, rfl, rfl, rfl, rfl⟩
  rw [addrByte_eq_append, BitVec.toNat_append, BitVec.toNat_ofBool,
    ← Nat.shiftLeft_add_eq_or_of_lt (Bool.toNat_lt rw), Nat.shiftLeft_eq]
  omega

end Sys2Proof.Machine
end

section
/-! PROOFS. The checks of the four commands in order (R142, R268), and what each command does past them (R145 to
R148). -/

namespace Sys2Proof.Machine

/-! The order of the checks. -/

/-- The checks of a row that come after others are looked at only if those pass (R268). -/
theorem firstFault_append (l l' : List (Bool × FaultReason)) :
    firstFault (l ++ l') = (firstFault l).or (firstFault l') := by
  induction l with
  | nil => rfl
  | cons c l ih =>
    obtain ⟨_ | _, r⟩ := c
    · exact ih
    · rfl

/-- `checkCommand()` in the order it is written (R142). -/
theorem firstFault_commandChecks (s : State) :
    firstFault (commandChecks s) =
      if s.inflight ≠ none then some .cmdInFlight
      else if s.prescaleSet = false ∨ s.prescale = 0#32 then some .notConfigured
      else if s.settled = false then some .notSettled
      else none := by
  simp [commandChecks, firstFault, Option.isSome_iff_ne_none]

/-- Where `checkCommand()` does not pass it raises one of its three reasons (R142). -/
theorem commandChecks_fail {s : State} (h : ¬(s.inflight = none ∧ Configured s)) :
    ∃ r, (r = .cmdInFlight ∨ r = .notConfigured ∨ r = .notSettled) ∧ firstFault (commandChecks s) = some r := by
  have hfail : firstFault (commandChecks s) ≠ none := mt (commandChecks_pass s).1 h
  rw [firstFault_commandChecks] at hfail ⊢
  by_cases hin : s.inflight ≠ none
  · exact ⟨_, .inl rfl, if_pos hin⟩
  rw [if_neg hin] at hfail ⊢
  by_cases hcfg : s.prescaleSet = false ∨ s.prescale = 0#32
  · exact ⟨_, .inr (.inl rfl), if_pos hcfg⟩
  rw [if_neg hcfg] at hfail ⊢
  by_cases hsettled : s.settled = false
  · exact ⟨_, .inr (.inr rfl), if_pos hsettled⟩
  · exact absurd (if_neg hsettled) hfail

/-- The checks every command begins with decide before those of its own row (R142). -/
theorem exec_of_commandChecks_fail {i : Instr} {s : State} {r : FaultReason} (hi : IsCommand i)
    (h : firstFault (commandChecks s) = some r) : exec i s = .next (s.recordFault r) := by
  have hfirst (rest : List (Bool × FaultReason)) : firstFault (commandChecks s ++ rest) = some r := by
    rw [firstFault_append, h, Option.some_or]
  obtain ⟨a, rfl | rfl | rfl | rfl⟩ := hi
  · exact guarded_fail s _ (hfirst _)
  · exact guarded_fail s _ (hfirst _)
  · exact guarded_fail s _ (hfirst _)
  · exact guarded_fail s _ h

/-- Settles O20: `checkCommand()` is written in this order, and each command begins with it. -/
theorem commandPreconditionsInOrder : Obligations.CommandPreconditionsInOrder := by
  intro i s hi
  refine ⟨fun hin => exec_of_commandChecks_fail hi ?_, fun hin hcfg => exec_of_commandChecks_fail hi ?_,
    fun hin hset hdiv hsettled => exec_of_commandChecks_fail hi ?_⟩
  · rw [firstFault_commandChecks, if_pos hin]
  · rw [firstFault_commandChecks, if_neg (not_not_intro hin), if_pos hcfg]
  · rw [firstFault_commandChecks, if_neg (not_not_intro hin), if_neg (by simp [hset, hdiv]), if_pos hsettled]

/-! Past `checkCommand()`. -/

section
variable {s : State} (hin : s.inflight = none) (hc : Configured s)
include hin hc

/-- Past `checkCommand()` the checks of the command's own row decide. -/
theorem firstFault_past_commandChecks (rest : List (Bool × FaultReason)) :
    firstFault (commandChecks s ++ rest) = firstFault rest := by
  rw [firstFault_append, (commandChecks_pass s).2 ⟨hin, hc⟩, Option.none_or]

theorem wrByteChecks_dataUnwritten (hd : s.data = none) : firstFault (wrByteChecks s) = some .dataUnwritten := by
  rw [wrByteChecks, firstFault_past_commandChecks hin hc, hd]
  rfl

theorem wrByteChecks_startBusBusy (hd : s.data ≠ none) (ho : s.own = false) (hb : s.busy = true) :
    firstFault (wrByteChecks s) = some .startBusBusy := by
  have hwritten : s.data.isNone = false := Option.isNone_eq_false_iff.2 (Option.isSome_iff_ne_none.2 hd)
  rw [wrByteChecks, firstFault_past_commandChecks hin hc, hwritten, ho, hb]
  rfl

theorem rdByteChecks_readNotOwner (ho : s.own = false) : firstFault (rdByteChecks s) = some .readNotOwner := by
  rw [rdByteChecks, firstFault_past_commandChecks hin hc, ho]
  rfl

/-- WRBYTE on a free bus: the START condition, then the command (R145). -/
theorem exec_ctrlWrbyte_free (ackEn : Bool) (hd : s.data ≠ none) (ho : s.own = false) (hb : s.busy = false) :
    exec (.ctrlWrbyte ackEn) s = .next (s.startCondition.issue (.wrByte true)) := by
  have hpass := (wrByteChecks_pass s).2 ⟨hin, hc, Option.isSome_iff_ne_none.2 hd, .inr hb⟩
  rw [exec, execCtrlWrbyte, guarded_pass _ _ hpass, if_neg (by simp [ho])]

/-- WRBYTE on a held bus: the command alone (R145). -/
theorem exec_ctrlWrbyte_held (ackEn : Bool) (hd : s.data ≠ none) (ho : s.own = true) :
    exec (.ctrlWrbyte ackEn) s = .next (s.issue (.wrByte false)) := by
  have hpass := (wrByteChecks_pass s).2 ⟨hin, hc, Option.isSome_iff_ne_none.2 hd, .inl ho⟩
  rw [exec, execCtrlWrbyte, guarded_pass _ _ hpass, if_pos ho]

end

/-- Settles O17: past `checkCommand()` the byte in DATA and the bus decide. -/
theorem wrByteSendsTheByteInData : Obligations.WrByteSendsTheByteInData := by
  refine ⟨rfl, rfl, fun ackEn s => ⟨fun hno => ?_, fun hin hc => ⟨?_, ?_, ?_, ?_⟩⟩⟩
  · obtain ⟨r, hr, hfirst⟩ := commandChecks_fail hno
    exact ⟨r, hr, exec_of_commandChecks_fail ⟨ackEn, .inl rfl⟩ hfirst⟩
  · exact fun hd => guarded_fail s _ (wrByteChecks_dataUnwritten hin hc hd)
  · exact fun hd ho hb => guarded_fail s _ (wrByteChecks_startBusBusy hin hc hd ho hb)
  · exact exec_ctrlWrbyte_free hin hc ackEn
  · exact exec_ctrlWrbyte_held hin hc ackEn

/-- Settles O18: both read commands stand under the same checks. -/
theorem readCommandsRecordTheAcknowledge : Obligations.ReadCommandsRecordTheAcknowledge := by
  refine ⟨rfl, rfl, rfl, rfl, fun start s => ⟨fun hno => ?_, fun hin hc => ⟨fun ho => ?_, fun ho => ?_⟩⟩⟩
  · obtain ⟨r, hr, hfirst⟩ := commandChecks_fail hno
    exact ⟨r, hr, exec_of_commandChecks_fail ⟨start, .inr (.inl rfl)⟩ hfirst,
      exec_of_commandChecks_fail ⟨start, .inr (.inr (.inl rfl))⟩ hfirst⟩
  · have hfirst := rdByteChecks_readNotOwner hin hc ho
    exact ⟨guarded_fail s _ hfirst, guarded_fail s _ hfirst⟩
  · have hpass := (rdByteChecks_pass s).2 ⟨hin, hc, ho⟩
    exact ⟨guarded_pass s _ hpass, guarded_pass s _ hpass⟩

/-- Settles O19: STOP has no check of its own. -/
theorem stopIssues : Obligations.StopIssues := by
  refine ⟨rfl, rfl, fun ackEn s hin hc => ?_, fun ackEn s hno => ?_⟩
  · exact guarded_pass s _ ((commandChecks_pass s).2 ⟨hin, hc⟩)
  · obtain ⟨r, hr, hfirst⟩ := commandChecks_fail hno
    exact ⟨r, hr, exec_of_commandChecks_fail ⟨ackEn, .inr (.inr (.inr rfl))⟩ hfirst⟩

end Sys2Proof.Machine
end

section
/-! PROOFS. The frames of an access, register by register (R76, R85, R144 to R159). -/

namespace Sys2Proof.Machine

section
variable {i : Instr} {s t : State} (h : ExecEffect s i t)
include h

theorem ExecEffect.sameHost : SameHost s t := by
  cases h <;> exact ⟨rfl, rfl, rfl, rfl, fun _ => rfl⟩

/-- No access makes a command hang, and none chooses who moves next. -/
theorem ExecEffect.hung_turn : t.hung = s.hung ∧ t.turn = s.turn ∧ t.ticks = s.ticks := by
  cases h <;> exact ⟨rfl, rfl, rfl⟩

theorem ExecEffect.prescale_frame (hi : ∀ v, i ≠ .prescaleWrite v) :
    t.prescale = s.prescale ∧ t.prescaleSet = s.prescaleSet ∧ t.settled = s.settled := by
  cases h with
  | prescaleWrite v => exact absurd rfl (hi v)
  | _ => exact ⟨rfl, rfl, rfl⟩

theorem ExecEffect.data_frame (hi : ∀ b, i ≠ .dataWrite b) : t.data = s.data := by
  cases h with
  | dataWrite b => exact absurd rfl (hi b)
  | _ => rfl

/-- A START condition is what an access can do to the bus, and WRBYTE alone generates one (R145). -/
theorem ExecEffect.bus_frame (hi : ∀ a, i ≠ .ctrlWrbyte a) :
    t.busy = s.busy ∧ t.own = s.own ∧ t.history = s.history := by
  cases h with
  | sendStart a => exact absurd rfl (hi a)
  | _ => exact ⟨rfl, rfl, rfl⟩

/-- The flags but BUSY change where a command is issued (R143). -/
theorem ExecEffect.flags_frame (hi : ¬IsCommand i) : SameFlags s t ∧ t.inflight = s.inflight := by
  cases h with
  | sendStart a | sendNext a => exact absurd ⟨a, .inl rfl⟩ hi
  | readAck a => exact absurd ⟨a, .inr (.inl rfl)⟩ hi
  | readNack a => exact absurd ⟨a, .inr (.inr (.inl rfl))⟩ hi
  | stop a => exact absurd ⟨a, .inr (.inr (.inr rfl))⟩ hi
  | _ => exact ⟨⟨rfl, rfl, rfl, rfl⟩, rfl⟩

theorem ExecEffect.load_frame (hi : ¬IsRead i) : t.loaded = s.loaded ∧ t.draws = s.draws := by
  cases h with
  | read _ _ hread => exact absurd hread hi
  | _ => exact ⟨rfl, rfl⟩

end

/-- Settles O30: a frame for each register, by the inversion of the access. -/
theorem accessesWriteOnlyTheirRegisters : Obligations.AccessesWriteOnlyTheirRegisters := by
  intro i s t h
  have he := exec_effect h
  obtain ⟨hhung, hturn, hticks⟩ := he.hung_turn
  exact ⟨he.sameHost, hhung, hturn, hticks, he.prescale_frame, he.data_frame, he.bus_frame, he.flags_frame,
    he.load_frame⟩

end Sys2Proof.Machine
end

section
/-! PROOFS. The other rows one by one (R144, R149 to R159): their encodings and their exact next states. -/

namespace Sys2Proof

/-- A descriptor is its direction and offset with the word in the low bits (R100). -/
theorem descriptor_eq_or (w : Bool) (off : Nat) (v : Word) :
    descriptor w off v = descriptor w off 0#32 ||| v.setWidth 40 := by
  apply BitVec.eq_of_getLsbD_eq
  intro i hi
  rw [BitVec.getLsbD_or, getLsbD_descriptor, getLsbD_descriptor, BitVec.getLsbD_setWidth]
  by_cases hlow : i < 32
  · simp [hlow, hi]
  · simp [hlow, BitVec.getLsbD_of_ge v i (Nat.le_of_not_lt hlow)]

/-- What a CTRL store with a reserved bit set decodes to (R151). -/
theorem decode_store_ctrl_reserved {v : Word} (h : ctrlReserved v ≠ 0#28) :
    decode (storeDescriptor Config.offCtrl v) = .ok (.ctrlRsvBits v) :=
  (decode_ctrl true v).trans (congrArg _ (decodeCtrlWrite_of_reserved h))

/-- What a DATA store with a reserved bit set decodes to (R156). -/
theorem decode_store_data_reserved {v : Word} (h : dataReserved v ≠ 0#24) :
    decode (storeDescriptor Config.offData v) = .ok (.dataWriteRsv v) :=
  (decode_data true v).trans (congrArg _ (decodeDataWrite_of_reserved h))

end Sys2Proof

namespace Sys2Proof.Machine

/-! CTRL. -/

/-- Settles O16, by evaluation: the row's meaning is the state it is given. -/
theorem ctrlNopChangesNothing : Obligations.CtrlNopChangesNothing := ⟨rfl, rfl, fun _ _ => rfl⟩

/-- Settles O21: the six words are the flag words of R108 with STOP and START, or STOP and READ, set. -/
theorem reservedCommandsFault : Obligations.ReservedCommandsFault := by
  refine ⟨fun w hw => ?_, fun w hw => ?_, fun _ _ _ => rfl, fun _ _ => rfl⟩
  · obtain ⟨read, ackEn, rfl⟩ : ∃ read ackEn, w = ctrlWord true true read ackEn := by
      simp only [List.mem_cons, List.not_mem_nil, or_false] at hw
      obtain rfl | rfl | rfl | rfl := hw
      · exact ⟨false, false, rfl⟩
      · exact ⟨true, false, rfl⟩
      · exact ⟨false, true, rfl⟩
      · exact ⟨true, true, rfl⟩
    exact ⟨read, ackEn, decodeCtrlWrite_ctrlWord true true read ackEn⟩
  · obtain ⟨ackEn, rfl⟩ : ∃ ackEn, w = ctrlWord false true true ackEn := by
      simp only [List.mem_cons, List.not_mem_nil, or_false] at hw
      obtain rfl | rfl := hw
      · exact ⟨false, rfl⟩
      · exact ⟨true, rfl⟩
    exact ⟨ackEn, decodeCtrlWrite_ctrlWord false true true ackEn⟩

/-- Settles O22: a reserved bit is what both decoders look at first. -/
theorem reservedBitsFault : Obligations.ReservedBitsFault :=
  ⟨fun _ => decode_store_ctrl_reserved, fun _ => decode_store_data_reserved, fun _ _ => rfl, fun _ _ => rfl⟩

/-- Settles O23, by evaluation: both rows load the draw at the state's count. -/
theorem writeOnlyRegistersReadAsDraws : Obligations.WriteOnlyRegistersReadAsDraws :=
  ⟨rfl, rfl, fun _ => ⟨_, rfl, rfl, rfl⟩⟩

/-! STATUS. -/

/-- Settles O24: the word delivered holds each flag at its bit, and the block's invariant says which are 0 while a
command is in flight. -/
theorem statusReadDeliversTheFlags : Obligations.StatusReadDeliversTheFlags := by
  refine ⟨rfl, fun s => ?_⟩
  have hdone := statusWord_done (Config.anyUInt27 s.draws) s
  have herror := statusWord_error (Config.anyUInt27 s.draws) s
  have harb := statusWord_arbLost (Config.anyUInt27 s.draws) s
  have hack := statusWord_ack (Config.anyUInt27 s.draws) s
  refine ⟨_, rfl, statusWord_busy _ s, hdone, herror, harb, hack, statusWord_reserved _ s, fun hinv hfly => ?_⟩
  have hin : s.inflight.isSome = true := hfly.elim Option.isSome_iff_ne_none.2 hinv.hung_inflight
  obtain ⟨hd, he, hl, ha⟩ := hinv.inflight_flags hin
  exact ⟨hdone.trans hd, herror.trans he, harb.trans hl, hack.trans ha⟩

/-- Settles O27: the decoder hands every STATUS write to the one row, which faults. -/
theorem statusWritesFault : Obligations.StatusWritesFault := ⟨decode_status true, fun _ _ => rfl⟩

/-! DATA. -/

/-- Bits 31:8 of a DATA word are its reserved bits (R104). -/
@[simp] theorem dataWord_reserved (u : BitVec 24) (b : Byte) : (dataWord u b).extractLsb' 8 24 = u :=
  BitVec.extractLsb'_append_eq_left

theorem exec_dataRead_of_inflight {s : State} (h : s.inflight ≠ none) :
    exec .dataRead s = .next ((s.load (Config.anyWord s.draws)).drew 1) :=
  if_pos (Option.isSome_iff_ne_none.2 h)

theorem exec_dataRead_of_unwritten {s : State} (hin : s.inflight = none) (hd : s.data = none) :
    exec .dataRead s = .next (s.recordFault .dataUnwritten) := by
  rw [exec, execDataRead, if_neg (by simp [hin]), hd, raiseFault]

theorem exec_dataRead_of_byte {s : State} {b : Byte} (hin : s.inflight = none) (hd : s.data = some b) :
    exec .dataRead s = .next ((s.load (dataWord (Config.anyUInt24 s.draws) b)).drew 1) := by
  rw [exec, execDataRead, if_neg (by simp [hin]), hd]

/-- Settles O26: with no command in flight, what DATA holds decides. -/
theorem dataReadDeliversTheByte : Obligations.DataReadDeliversTheByte :=
  ⟨rfl, fun _ hin => exec_dataRead_of_inflight hin, fun _ hin hd => exec_dataRead_of_unwritten hin hd,
    fun _ b hin hd => ⟨_, lowByte_dataWord _ b, dataWord_reserved _ b, exec_dataRead_of_byte hin hd⟩⟩

/-- Settles O28: the row's one check is that no command is in flight. -/
theorem dataWriteStoresTheByte : Obligations.DataWriteStoresTheByte := by
  refine ⟨fun b => ?_, fun b s hin => ?_, fun b s hin => ?_⟩
  · have hword : (b.setWidth 32).setWidth 40 = b.setWidth 40 := BitVec.setWidth_setWidth (by decide)
    rw [← hword]
    exact descriptor_eq_or true Config.offData (b.setWidth 32)
  · exact guarded_pass s _ (by simp [hin])
  · exact guarded_fail s _ (by simp [Option.isSome_iff_ne_none.2 hin])

/-! PRESCALE. -/

theorem prescaleChecks_fail {s : State} (h : s.inflight ≠ none ∨ s.own = true) :
    firstFault (prescaleChecks s) = some .prescaleBusy := by
  have hcheck : (s.inflight.isSome || s.own) = true := by simpa [Option.isSome_iff_ne_none] using h
  rw [prescaleChecks, hcheck, firstFault_cons_true]

/-- Settles O29: the row's one check is that no command is in flight and the bus is not held. -/
theorem prescaleWriteStoresTheDivisor : Obligations.PrescaleWriteStoresTheDivisor := by
  refine ⟨fun v => ?_, fun v s hin ho => ?_, fun v s hbusy => ?_⟩
  · exact descriptor_eq_or true Config.offPrescale v
  · exact guarded_pass s _ ((prescaleChecks_pass s).2 ⟨hin, ho⟩)
  · exact guarded_fail s _ (prescaleChecks_fail hbusy)

end Sys2Proof.Machine
end

section
/-! PROOFS. The controller's six steps one by one (R180 to R188): when each is enabled, what taking it does, and what
none of them touches. -/

namespace Sys2Proof.Machine

/-! When a step is enabled (R180). -/

section
variable {h : Bool} {s : State}

theorem enabled_completeWrByte : enabled h .completeWrByte s = true ↔
    s.faults = [] ∧ (∃ sc, s.inflight = some (.wrByte sc)) ∧ s.hung = false := by
  obtain hin | ⟨_ | _ | _, hin⟩ := Option.eq_none_or_eq_some s.inflight <;> simp [enabled, hin, Cmd.isWrByte]

theorem enabled_completeRdByte : enabled h .completeRdByte s = true ↔
    s.faults = [] ∧ (∃ k, s.inflight = some (.rdByte k)) ∧ s.hung = false := by
  obtain hin | ⟨_ | _ | _, hin⟩ := Option.eq_none_or_eq_some s.inflight <;> simp [enabled, hin, Cmd.isRdByte]

theorem enabled_completeStop : enabled h .completeStop s = true ↔
    s.faults = [] ∧ s.inflight = some .stop ∧ s.hung = false := by
  obtain hin | ⟨_ | _ | _, hin⟩ := Option.eq_none_or_eq_some s.inflight <;> simp [enabled, hin, Cmd.isStop]

theorem enabled_release : enabled h .release s = true ↔
    s.faults = [] ∧ s.inflight = none ∧ s.own = false ∧ s.busy = true := by
  simp [enabled, and_assoc]

theorem enabled_hang : enabled h .hang s = true ↔
    s.faults = [] ∧ h = true ∧ s.inflight ≠ none ∧ s.hung = false := by
  simp [enabled, and_assoc, Option.isSome_iff_ne_none]

theorem enabled_settle : enabled h .settle s = true ↔
    s.faults = [] ∧ s.prescaleSet = true ∧ s.settled = false := by
  simp [enabled]

theorem enabled_of_faults {k : ControllerStep} (hf : s.faults ≠ []) : enabled h k s = false := by
  simp [enabled, hf]

theorem faults_of_enabled {k : ControllerStep} (he : enabled h k s = true) : s.faults = [] := by
  simp only [enabled, Bool.and_eq_true, List.isEmpty_iff] at he
  exact he.1

end

/-! The turn of the controller with an enabled step. -/

theorem stepBy_of_enabled (sched : Nat → Turn) {k : ControllerStep} {s : State} (ht : s.turn = .controller k)
    (he : enabled Config.hwFaultHang k s = true) :
    stepBy sched s = .next ((controllerStep k s).chooseBy sched) := by
  have hturn : agentTurn s.turn s = .next (controllerStep k s) := by
    rw [ht]
    exact if_pos he
  exact stepBy_of_turn sched (faults_of_enabled he) hturn

theorem step_of_enabled {k : ControllerStep} {s : State} (ht : s.turn = .controller k)
    (he : enabled Config.hwFaultHang k s = true) : step s = .next (controllerStep k s).choose :=
  stepBy_of_enabled Config.schedule ht he

/-- Settles O32: one lemma for each row of R180's table, and the turn that takes an enabled step. -/
theorem controllerStepsEnabledAsTabulated : Obligations.ControllerStepsEnabledAsTabulated := by
  refine ⟨fun h s hf => ⟨?_, ?_, ?_, ?_, ?_, ?_⟩, fun h k s => enabled_of_faults, fun k s => step_of_enabled⟩
  · exact enabled_completeWrByte.trans (and_iff_right hf)
  · exact enabled_completeRdByte.trans (and_iff_right hf)
  · exact enabled_completeStop.trans (and_iff_right hf)
  · exact enabled_release.trans (and_iff_right hf)
  · exact enabled_hang.trans (and_iff_right hf)
  · exact enabled_settle.trans (and_iff_right hf)

/-! The completions. -/

/-- Settles O33: the four answers, and the byte in DATA as the one sent. -/
theorem wrByteCompletes : Obligations.WrByteCompletes := by
  refine ⟨fun b o s => ?_, fun sc b s hf ht hin hh hd => ?_⟩
  · cases o <;> simp [completeWrByte, State.emit, State.finish]
  · have hbyte : byteToSend s = b := by simp [byteToSend, hd]
    rw [step_of_enabled ht (enabled_completeWrByte.2 ⟨hf, ⟨sc, hin⟩, hh⟩), controllerStep, hbyte]
    cases Config.busTx s.history b s.draws <;> rfl

/-- Settles O34: the three answers, and the ACK_EN bit of the command in flight as the one sent. -/
theorem rdByteCompletes : Obligations.RdByteCompletes := by
  refine ⟨fun k a junk draw s => ?_, fun k s hf ht hin hh => ?_⟩
  · cases a <;> rfl
  · have hack : masterAck s = k := by cases k <;> simp [masterAck, hin]
    rw [step_of_enabled ht (enabled_completeRdByte.2 ⟨hf, ⟨k, hin⟩, hh⟩), controllerStep, hack]
    cases Config.busRx s.history k s.draws <;> rfl

theorem completeStop_of_own {s : State} (o : StopOutcome) (ho : s.own = true) :
    completeStop o s = { s with
      history := s.history ++ [.stop o], error := s.error || o == .err, arbLost := s.arbLost || o == .arb,
      own := false, done := true, inflight := none } := by
  cases o <;> simp [completeStop, ho, State.emit, State.finish]

theorem completeStop_of_not_own {s : State} (o : StopOutcome) (ho : s.own = false) :
    completeStop o s = { s with done := true, inflight := none } := by
  simp [completeStop, ho, State.finish]

/-- Settles O35: ownership decides whether the bus is asked at all. -/
theorem stopCompletes : Obligations.StopCompletes := by
  refine ⟨fun o s => completeStop_of_own o, fun o s => completeStop_of_not_own o, fun s hf ht hin hh => ?_⟩
  rw [step_of_enabled ht (enabled_completeStop.2 ⟨hf, hin, hh⟩), controllerStep]
  constructor
  · intro ho
    rw [if_pos ho, completeStop_of_own _ ho]
    rfl
  · intro ho
    rw [if_neg (by simp [ho]), completeStop_of_not_own _ ho]
    rfl

/-- Settles O37: each of the two steps, taken where it is enabled. -/
theorem releaseAndSettle : Obligations.ReleaseAndSettle :=
  ⟨fun _ hf ht hin ho hb => step_of_enabled ht (enabled_release.2 ⟨hf, hin, ho, hb⟩),
    fun _ hf ht hp hs => step_of_enabled ht (enabled_settle.2 ⟨hf, hp, hs⟩)⟩

/-! The completions as one kind of step. -/

/-- The step that completes a command (R183 to R185). -/
def Cmd.completion : Cmd → ControllerStep
  | .wrByte _ => .completeWrByte
  | .rdByte _ => .completeRdByte
  | .stop => .completeStop

theorem controllerStep_kinds (k : ControllerStep) :
    (∃ c : Cmd, k = c.completion) ∨ k = .release ∨ k = .hang ∨ k = .settle := by
  cases k with
  | completeWrByte => exact .inl ⟨.wrByte false, rfl⟩
  | completeRdByte => exact .inl ⟨.rdByte false, rfl⟩
  | completeStop => exact .inl ⟨.stop, rfl⟩
  | release => exact .inr (.inl rfl)
  | hang => exact .inr (.inr (.inl rfl))
  | settle => exact .inr (.inr (.inr rfl))

section
variable {c : Cmd}

@[simp] theorem completion_eq_completeWrByte : c.completion = .completeWrByte ↔ ∃ sc, c = .wrByte sc := by
  cases c <;> simp [Cmd.completion]

@[simp] theorem completion_eq_completeRdByte : c.completion = .completeRdByte ↔ ∃ k, c = .rdByte k := by
  cases c <;> simp [Cmd.completion]

@[simp] theorem completion_eq_completeStop : c.completion = .completeStop ↔ c = .stop := by
  cases c <;> simp [Cmd.completion]

theorem completion_ne_release : c.completion ≠ .release := by
  cases c <;> nofun

theorem completion_ne_settle : c.completion ≠ .settle := by
  cases c <;> nofun

end

/-- A completion is enabled for the command it completes, unless that hangs (R180). -/
theorem enabled_completion {h : Bool} {c : Cmd} {s : State} : enabled h c.completion s = true ↔
    s.faults = [] ∧ (∃ c', s.inflight = some c' ∧ c'.completion = c.completion) ∧ s.hung = false := by
  cases c with
  | wrByte => rw [Cmd.completion, enabled_completeWrByte]; simp [and_or_left, exists_or]
  | rdByte => rw [Cmd.completion, enabled_completeRdByte]; simp [and_or_left, exists_or]
  | stop => rw [Cmd.completion, enabled_completeStop]; simp

theorem completes_completion (c : Cmd) (s : State) : Completes s (controllerStep c.completion s) := by
  cases c with
  | wrByte => exact (completes_completeWrByte _ _ s).drew 1
  | rdByte => exact (completes_completeRdByte _ _ _ _ s).drew 1
  | stop =>
    simp only [Cmd.completion, controllerStep]
    split
    · exact (completes_completeStop _ s).drew 1
    · exact completes_completeStop _ s

/-! The frame. -/

/-- The host's side with its variable, and the choice of who moves next, are the same in both states. -/
def SameSurroundings (s t : State) : Prop :=
  SameHost s t ∧ t.loaded = s.loaded ∧ t.turn = s.turn ∧ t.ticks = s.ticks

theorem sameSurroundings_completeWrByte (b : Byte) (o : TxOutcome) (s : State) :
    SameSurroundings s (completeWrByte b o s) := by
  cases o <;> exact ⟨⟨rfl, rfl, rfl, rfl, fun _ => rfl⟩, rfl, rfl, rfl⟩

theorem sameSurroundings_completeRdByte (k : Bool) (a : RxAnswer) (junk : Byte) (draw : Bool) (s : State) :
    SameSurroundings s (completeRdByte k a junk draw s) := by
  cases a <;> exact ⟨⟨rfl, rfl, rfl, rfl, fun _ => rfl⟩, rfl, rfl, rfl⟩

theorem sameSurroundings_completeStop (o : StopOutcome) (s : State) : SameSurroundings s (completeStop o s) := by
  cases ho : s.own
  · rw [completeStop_of_not_own o ho]
    exact ⟨⟨rfl, rfl, rfl, rfl, fun _ => rfl⟩, rfl, rfl, rfl⟩
  · rw [completeStop_of_own o ho]
    exact ⟨⟨rfl, rfl, rfl, rfl, fun _ => rfl⟩, rfl, rfl, rfl⟩

/-- The controller moves neither the host nor the choice of who moves next. -/
theorem sameSurroundings_controllerStep (k : ControllerStep) (s : State) :
    SameSurroundings s (controllerStep k s) := by
  cases k with
  | completeWrByte => exact sameSurroundings_completeWrByte _ _ s
  | completeRdByte => exact sameSurroundings_completeRdByte _ _ _ _ s
  | completeStop =>
    rw [controllerStep]
    split
    · exact sameSurroundings_completeStop _ s
    · exact sameSurroundings_completeStop _ s
  | release | hang | settle => exact ⟨⟨rfl, rfl, rfl, rfl, fun _ => rfl⟩, rfl, rfl, rfl⟩

/-- Settles O38: what every completion leaves, and the one field each of the other three steps writes. -/
theorem controllerFrame : Obligations.ControllerFrame := by
  intro k s
  obtain ⟨hhost, hloaded, hturn, hticks⟩ := sameSurroundings_controllerStep k s
  have hdata : k ≠ .completeRdByte → (controllerStep k s).data = s.data := controllerStep_data s
  obtain ⟨c, rfl⟩ | rfl | rfl | rfl := controllerStep_kinds k
  · have hc := completes_completion c s
    exact ⟨hhost, hloaded, hc.faults, hc.prescale, hc.prescaleSet, hturn, hticks, hdata, fun _ => hc.busy,
      fun _ => hc.hung, fun _ => hc.settled⟩
  · exact ⟨hhost, hloaded, rfl, rfl, rfl, hturn, hticks, hdata, absurd rfl, fun _ => rfl, fun _ => rfl⟩
  · exact ⟨hhost, hloaded, rfl, rfl, rfl, hturn, hticks, hdata, fun _ => rfl, absurd rfl, fun _ => rfl⟩
  · exact ⟨hhost, hloaded, rfl, rfl, rfl, hturn, hticks, hdata, fun _ => rfl, fun _ => rfl, absurd rfl⟩

end Sys2Proof.Machine
end

section
/-! PROOFS. What a step does to the command in flight and to the flags (R143, R183 to R187, R190). -/

namespace Sys2Proof.Machine

theorem SameFlags.refl (s : State) : SameFlags s s := ⟨rfl, rfl, rfl, rfl⟩

theorem SameBlock.sameFlags {s t : State} (h : SameBlock s t) : SameFlags s t :=
  ⟨h.done, h.error, h.arbLost, h.ack⟩

theorem SameFlags.trans {s t u : State} (h : SameFlags s t) (h' : SameFlags t u) : SameFlags s u :=
  ⟨h'.1.trans h.1, h'.2.1.trans h.2.1, h'.2.2.1.trans h.2.2.1, h'.2.2.2.trans h.2.2.2⟩

/-- An access leaves the command in flight and the flags, or issues a command where none was in flight (R142, R143). -/
theorem ExecEffect.command {i : Instr} {s u : State} (h : ExecEffect s i u) :
    (SameFlags s u ∧ u.inflight = s.inflight) ∨ (s.inflight = none ∧ u.inflight ≠ none) := by
  cases h with
  | sendStart _ hin | sendNext _ hin | readAck _ hin | readNack _ hin | stop _ hin => exact .inr ⟨hin, nofun⟩
  | _ => exact .inl ⟨⟨rfl, rfl, rfl, rfl⟩, rfl⟩

/-- An enabled step of the controller leaves the command in flight and the flags, or completes the command. -/
theorem controllerStep_command {h : Bool} {k : ControllerStep} {s : State} (he : enabled h k s = true) :
    (SameFlags s (controllerStep k s) ∧ (controllerStep k s).inflight = s.inflight) ∨
    ((∃ c, s.inflight = some c ∧ k = c.completion) ∧ s.hung = false ∧ Completes s (controllerStep k s)) := by
  obtain ⟨c, rfl⟩ | rfl | rfl | rfl := controllerStep_kinds k
  · obtain ⟨-, ⟨c', hin, hc⟩, hh⟩ := enabled_completion.1 he
    exact .inr ⟨⟨c', hin, hc.symm⟩, hh, completes_completion c s⟩
  · exact .inl ⟨SameFlags.refl s, rfl⟩
  · exact .inl ⟨SameFlags.refl s, rfl⟩
  · exact .inl ⟨SameFlags.refl s, rfl⟩

section
variable {sched : Nat → Turn} {s t : State} (h : stepBy sched s = .next t)
include h

/-- A step leaves the command in flight and the flags, issues a command, or completes one that is not hung. -/
theorem stepBy_command :
    (SameFlags s t ∧ t.inflight = s.inflight) ∨ (s.inflight = none ∧ t.inflight ≠ none) ∨
    (s.inflight ≠ none ∧ s.hung = false ∧ t.inflight = none) := by
  obtain ⟨-, hb⟩ := stepBy_block h
  cases hb with
  | same _ hs => exact .inl ⟨hs.sameFlags, hs.inflight⟩
  | access i u _ _ he hs =>
    rw [hs.inflight]
    exact he.command.imp (And.imp_left (·.trans hs.sameFlags)) .inl
  | badWidth _ _ hs => exact .inl ⟨hs.sameFlags, hs.inflight⟩
  | controller k _ _ he hs =>
    rw [hs.inflight]
    obtain ⟨hflags, hin⟩ | ⟨⟨c, hin, -⟩, hh, hc⟩ := controllerStep_command he
    · exact .inl ⟨hflags.trans hs.sameFlags, hin⟩
    · exact .inr (.inr ⟨by simp [hin], hh, hc.inflight⟩)

/-- A step makes a command hang in the hang step alone, and none ends a hang (R187). -/
theorem stepBy_hung :
    t.hung = s.hung ∨ (t.hung = true ∧ s.turn = .controller .hang ∧ s.inflight ≠ none) := by
  obtain ⟨-, hb⟩ := stepBy_block h
  cases hb with
  | same _ hs => exact .inl hs.hung
  | access i u _ _ he hs =>
    obtain ⟨hu, -, -⟩ := he.hung_turn
    exact .inl (hs.hung.trans hu)
  | badWidth _ _ hs => exact .inl hs.hung
  | controller k _ ht he hs =>
    obtain ⟨c, rfl⟩ | rfl | rfl | rfl := controllerStep_kinds k
    · exact .inl (hs.hung.trans (completes_completion c s).hung)
    · exact .inl hs.hung
    · obtain ⟨-, -, hin, -⟩ := enabled_hang.1 he
      exact .inr ⟨hs.hung, ht, hin⟩
    · exact .inl hs.hung

end

theorem enabled_false_hang (s : State) : enabled false .hang s = false := by
  simp [enabled]

/-- Settles O36: no step ends a hang, and only a command that is not hung completes. -/
theorem hungCommandNeverCompletes : Obligations.HungCommandNeverCompletes := by
  refine ⟨fun s hf ht hin hh => step_of_enabled ht (enabled_hang.2 ⟨hf, rfl, hin, hh⟩), enabled_false_hang,
    fun s t h => ?_⟩
  have stays (hh : s.hung = true) : t.hung = true :=
    (stepBy_hung h).elim (fun he => he.trans hh) And.left
  refine ⟨fun hh hin hd => ?_, stays, fun hh hht => ?_⟩
  · obtain ⟨⟨hdone, -, -, -⟩, hcmd⟩ | ⟨hnone, -⟩ | ⟨-, hnot, -⟩ := stepBy_command h
    · exact ⟨stays hh, hcmd, hdone.trans hd⟩
    · exact absurd hnone hin
    · simp [hh] at hnot
  · obtain he | ⟨-, ht, hin⟩ := stepBy_hung h
    · simp [hh, hht] at he
    · exact ⟨ht, hin⟩

/-- STATUS classifies by the flags alone (R215). -/
theorem SameFlags.classify {s t : State} (h : SameFlags s t) (u v : BitVec 27) :
    classify (statusWord u t) = classify (statusWord v s) := by
  obtain ⟨-, herror, harb, hack⟩ := h
  rw [classify_statusWord, classify_statusWord, herror, harb, hack]

/-- Settles O41: without an issue and without a completion a step leaves the flags, and of the three things it can do
to BUSY the START would leave a command in flight. -/
theorem flagsAreStableBetweenCommands : Obligations.FlagsAreStableBetweenCommands := by
  intro s t h hin hin'
  have hflags : SameFlags s t := by
    obtain ⟨hflags, -⟩ | ⟨-, hissued⟩ | ⟨hflying, -, -⟩ := stepBy_command h
    · exact hflags
    · exact absurd hin' hissued
    · exact absurd hin hflying
  refine ⟨hflags, ?_, hflags.classify⟩
  obtain hsame | ⟨-, -, hs⟩ | ⟨hfree, ht, ho, -⟩ := step_busy h
  · exact .inl hsame
  · have hissued : t.inflight = some (.wrByte true) := hs.inflight
    simp [hin'] at hissued
  · cases hb : s.busy
    · exact .inl hfree
    · exact .inr ⟨rfl, hfree, ho, ht⟩

end Sys2Proof.Machine
end

section
/-! PROOFS. Weak fairness (R189): an enabled fair step stays enabled until something overtakes it, so that a fair run
takes it; what a stuck state leaves; and a fair run that hangs (R187). -/

namespace Sys2Proof.Machine

/-! An enabled step stays enabled. -/

theorem SameBlock.enabled {s t : State} (hs : SameBlock s t) (h : Bool) (k : ControllerStep) :
    enabled h k t = enabled h k s := by
  simp only [Machine.enabled, hs.faults, hs.inflight, hs.hung, hs.own, hs.busy, hs.prescaleSet, hs.settled]

/-- With no command in flight, release and settle are the steps that can be enabled (R180). -/
theorem eq_release_or_settle_of_enabled {h : Bool} {k : ControllerStep} {s : State} (hin : s.inflight = none)
    (hk : enabled h k s = true) : k = .release ∨ k = .settle := by
  obtain ⟨c, rfl⟩ | rfl | rfl | rfl := controllerStep_kinds k
  · obtain ⟨-, ⟨c', hc, -⟩, -⟩ := enabled_completion.1 hk
    simp [hin] at hc
  · exact .inl rfl
  · obtain ⟨-, -, hfly, -⟩ := enabled_hang.1 hk
    exact absurd hin hfly
  · exact .inr rfl

/-- Where a command can be issued, release is the step that can be enabled (R142, R180). -/
theorem eq_release_of_enabled {h : Bool} {k : ControllerStep} {s : State} (hin : s.inflight = none)
    (hc : Configured s) (hk : enabled h k s = true) : k = .release := by
  obtain rfl | rfl := eq_release_or_settle_of_enabled hin hk
  · rfl
  · obtain ⟨-, -, hsettled⟩ := enabled_settle.1 hk
    obtain ⟨-, -, hsettled'⟩ := hc
    simp [hsettled] at hsettled'

/-- An access that does not fault leaves a step of the controller enabled, but for the release, which the issue of a
command disables. -/
theorem ExecEffect.keeps_enabled {i : Instr} {h : Bool} {k : ControllerStep} {s u : State} (he : ExecEffect s i u)
    (hf : u.faults = []) (hk : enabled h k s = true) :
    enabled h k u = true ∨ (k = .release ∧ u.inflight ≠ none) := by
  cases he with
  | fault _ r => simp at hf
  | nop | read | dataWrite => exact .inl hk
  | sendStart _ hin hc | sendNext _ hin hc | readAck _ hin hc | readNack _ hin hc | stop _ hin hc =>
    exact .inr ⟨eq_release_of_enabled hin hc hk, nofun⟩
  | prescaleWrite v hin ho =>
    obtain rfl | rfl := eq_release_or_settle_of_enabled hin hk
    · exact .inl hk
    · exact .inl (enabled_settle.2 ⟨hf, rfl, rfl⟩)

/-- A step of the controller leaves every other fair one enabled, but for the hang step, which disables a
completion. -/
theorem controllerStep_keeps_enabled {h : Bool} {j k : ControllerStep} {s : State} (hfair : isFair k = true)
    (hj : enabled h j s = true) (hk : enabled h k s = true) :
    enabled h k (controllerStep j s) = true ∨ j = k ∨ (j = .hang ∧ ∃ c : Cmd, k = c.completion) := by
  obtain ⟨c, rfl⟩ | rfl | rfl | rfl := controllerStep_kinds j
  · obtain ⟨-, ⟨c₁, hin, hc₁⟩, -⟩ := enabled_completion.1 hj
    have hdone := completes_completion c s
    obtain ⟨c', rfl⟩ | rfl | rfl | rfl := controllerStep_kinds k
    · obtain ⟨-, ⟨c₂, hin', hc₂⟩, -⟩ := enabled_completion.1 hk
      obtain rfl : c₁ = c₂ := Option.some.inj (hin.symm.trans hin')
      exact .inr (.inl (hc₁.symm.trans hc₂))
    · obtain ⟨-, hnone, -⟩ := enabled_release.1 hk
      simp [hin] at hnone
    · cases hfair
    · obtain ⟨hf, hp, hs⟩ := enabled_settle.1 hk
      exact .inl (enabled_settle.2 ⟨hdone.faults.trans hf, hdone.prescaleSet.trans hp, hdone.settled.trans hs⟩)
  · obtain ⟨-, hnone, -⟩ := enabled_release.1 hj
    obtain rfl | rfl := eq_release_or_settle_of_enabled hnone hk
    · exact .inr (.inl rfl)
    · exact .inl hk
  · obtain hc | rfl | rfl | rfl := controllerStep_kinds k
    · exact .inr (.inr ⟨rfl, hc⟩)
    · exact .inl hk
    · cases hfair
    · exact .inl hk
  · obtain ⟨c, rfl⟩ | rfl | rfl | rfl := controllerStep_kinds k
    · have hc := enabled_completion.1 hk
      exact .inl (enabled_completion.2 hc)
    · exact .inl hk
    · cases hfair
    · exact .inr (.inl rfl)

/-- What ends the enabledness of a fair step that is not taken (R189): the command it would complete hangs, or, for
the release, a command is issued. -/
def Overtaken (k : ControllerStep) (s t : State) : Prop :=
  (s.turn = .controller .hang ∧ t.hung = true ∧ ∃ c : Cmd, k = c.completion) ∨
  (k = .release ∧ t.inflight ≠ none)

theorem Overtaken.completion {c : Cmd} {s t : State} (h : Overtaken c.completion s t) : t.hung = true := by
  obtain ⟨-, hhung, -⟩ | ⟨hrelease, -⟩ := h
  · exact hhung
  · exact absurd hrelease completion_ne_release

theorem Overtaken.release {s t : State} (h : Overtaken .release s t) : t.inflight ≠ none := by
  obtain ⟨-, -, c, hc⟩ | ⟨-, hissued⟩ := h
  · exact absurd hc.symm completion_ne_release
  · exact hissued

/-- Nothing overtakes the settle step. -/
theorem not_overtaken_settle (s t : State) : ¬Overtaken .settle s t := by
  rintro (⟨-, -, c, hc⟩ | ⟨hrelease, -⟩)
  · exact completion_ne_settle hc.symm
  · cases hrelease

/-- An enabled fair step stays enabled until it is taken or overtaken, in steps that record no fault (R189). -/
theorem stepBy_keeps_enabled {sched : Nat → Turn} {k : ControllerStep} {s t : State} (hfair : isFair k = true)
    (h : stepBy sched s = .next t) (hf : t.faults = []) (hk : enabled Config.hwFaultHang k s = true) :
    enabled Config.hwFaultHang k t = true ∨ s.turn = .controller k ∨ Overtaken k s t := by
  obtain ⟨-, hb⟩ := stepBy_block h
  cases hb with
  | same _ hs => exact .inl ((hs.enabled _ k).trans hk)
  | access i u _ _ he hs =>
    rw [hs.enabled]
    obtain hu | ⟨rfl, hissued⟩ := he.keeps_enabled (hs.faults.symm.trans hf) hk
    · exact .inl hu
    · exact .inr (.inr (.inr ⟨rfl, hs.inflight ▸ hissued⟩))
  | badWidth _ _ hs => simp [hs.faults] at hf
  | controller j _ ht he hs =>
    rw [hs.enabled]
    obtain hu | rfl | ⟨rfl, hc⟩ := controllerStep_keeps_enabled hfair he hk
    · exact .inl hu
    · exact .inr (.inl ht)
    · exact .inr (.inr (.inl ⟨ht, hs.hung, hc⟩))

/-! Weakly fair endless runs. -/

theorem isFair_completion (c : Cmd) : isFair c.completion = true := by
  cases c <;> rfl

section
variable {sched : Nat → Turn} {r : Nat → State} (hrun : IsRun sched r)
include hrun

theorem IsRun.faults (n : Nat) : (r n).faults = [] :=
  (stepBy_next (hrun n)).1

/-- The controller's turn with an enabled step takes it. -/
theorem IsRun.takes {k : ControllerStep} {n : Nat} (ht : (r n).turn = .controller k)
    (he : enabled Config.hwFaultHang k (r n) = true) : r (n + 1) = (controllerStep k (r n)).chooseBy sched := by
  have hstep := (hrun n).symm.trans (stepBy_of_enabled sched ht he)
  injection hstep

variable (hfairRun : WeaklyFair r)
include hfairRun

/-- In a weakly fair run an enabled fair step is taken or overtaken: otherwise it would stay enabled for ever. -/
theorem IsRun.exists_taken_or_overtaken {k : ControllerStep} {n : Nat} (hfair : isFair k = true)
    (he : enabled Config.hwFaultHang k (r n) = true) :
    ∃ m, n ≤ m ∧ (r (m + 1) = (controllerStep k (r m)).chooseBy sched ∨ Overtaken k (r m) (r (m + 1))) := by
  refine Classical.byContradiction fun hno => ?_
  have stays (m : Nat) (hm : n ≤ m) : enabled Config.hwFaultHang k (r m) = true := by
    induction hm with
    | refl => exact he
    | @step m hm ih =>
      obtain hnext | hturn | hover := stepBy_keeps_enabled hfair (hrun m) (hrun.faults (m + 1)) ih
      · exact hnext
      · exact (hno ⟨m, hm, .inl (hrun.takes hturn ih)⟩).elim
      · exact (hno ⟨m, hm, .inr hover⟩).elim
  obtain ⟨m, hm, hturn⟩ := hfairRun k hfair n stays
  exact hno ⟨m, hm, .inl (hrun.takes hturn (stays m hm))⟩

/-- A command that never hangs completes. -/
theorem IsRun.exists_completed {n : Nat} (hin : (r n).inflight ≠ none) (hh : ∀ m, n ≤ m → (r m).hung = false) :
    ∃ m, n ≤ m ∧ (r m).inflight = none ∧ (r m).done = true := by
  obtain ⟨c, hc⟩ := Option.ne_none_iff_exists'.1 hin
  have he : enabled Config.hwFaultHang c.completion (r n) = true :=
    enabled_completion.2 ⟨hrun.faults n, ⟨c, hc, rfl⟩, hh n (Nat.le_refl n)⟩
  obtain ⟨m, hm, htaken | hover⟩ := hrun.exists_taken_or_overtaken hfairRun (isFair_completion c) he
  · have hdone := completes_completion c (r m)
    exact ⟨m + 1, Nat.le_succ_of_le hm, htaken ▸ hdone.inflight, htaken ▸ hdone.done⟩
  · exact absurd hover.completion (by simp [hh (m + 1) (Nat.le_succ_of_le hm)])

/-- A bus that is free of commands and not held is released, or a command is issued. -/
theorem IsRun.exists_released {n : Nat} (hin : (r n).inflight = none) (ho : (r n).own = false) :
    ∃ m, n ≤ m ∧ ((r m).busy = false ∨ (r m).inflight ≠ none) := by
  cases hb : (r n).busy with
  | false => exact ⟨n, Nat.le_refl n, .inl hb⟩
  | true =>
    have he : enabled Config.hwFaultHang .release (r n) = true := enabled_release.2 ⟨hrun.faults n, hin, ho, hb⟩
    obtain ⟨m, hm, htaken | hover⟩ := hrun.exists_taken_or_overtaken hfairRun rfl he
    · exact ⟨m + 1, Nat.le_succ_of_le hm, .inl (htaken ▸ rfl)⟩
    · exact ⟨m + 1, Nat.le_succ_of_le hm, .inr hover.release⟩

/-- A PRESCALE write settles. -/
theorem IsRun.exists_settled {n : Nat} (hp : (r n).prescaleSet = true) : ∃ m, n ≤ m ∧ (r m).settled = true := by
  cases hs : (r n).settled with
  | true => exact ⟨n, Nat.le_refl n, hs⟩
  | false =>
    have he : enabled Config.hwFaultHang .settle (r n) = true := enabled_settle.2 ⟨hrun.faults n, hp, hs⟩
    obtain ⟨m, hm, htaken | hover⟩ := hrun.exists_taken_or_overtaken hfairRun rfl he
    · exact ⟨m + 1, Nat.le_succ_of_le hm, htaken ▸ rfl⟩
    · exact absurd hover (not_overtaken_settle _ _)

end

/-! Stuck states. -/

theorem Result.map_fault {f : State → State} {r : Result} {e : Fault} (h : Result.map f r = .fault e) :
    r = .fault e := by
  cases r with
  | next s => cases h
  | fault e' => simpa [Result.map] using h
  | refused r => cases h

theorem hold_stuck {s : State} (h : hold s = .fault .stuck) : anyEnabled s = false := by
  cases hany : anyEnabled s with
  | false => rfl
  | true =>
    rw [hold_of_anyEnabled hany] at h
    cases h

/-- A register access runs or is refused: it never stops with a fault (log 1). -/
theorem registerAccess_ne_fault (d : Descriptor) (s : State) (r : Fault) : registerAccess d s ≠ .fault r := by
  intro h
  cases hd : decode d with
  | ok i =>
    obtain ⟨u, hu⟩ := exec_next i s
    simp [registerAccess_of hd hu] at h
  | error e =>
    cases e
    simp [registerAccess, hd] at h

/-- The one fault of a host RAM access is the end of the address space (log 13). -/
theorem ramAccess_ne_stuck (a : HostAccess) (s : State) : ramAccess a s ≠ .fault .stuck := by
  rw [ramAccess]
  split
  · nofun
  · split <;> nofun

theorem memoryAccess_ne_stuck (base : Nat) (a : HostAccess) (s : State) : memoryAccess base a s ≠ .fault .stuck := by
  rw [memoryAccess]
  split
  · exact registerAccess_ne_fault _ s _
  · nofun
  · exact fun h => ramAccess_ne_stuck a s (Result.map_fault h)

theorem hostTurn_stuck {s : State} (h : hostTurn s = .fault .stuck) : anyEnabled s = false := by
  unfold hostTurn at h
  split at h
  · exact hold_stuck h
  · exact absurd h (registerAccess_ne_fault _ s _)
  · exact absurd h (memoryAccess_ne_stuck _ _ s)
  · split at h
    · cases h
    · exact hold_stuck h
  · cases h
  · cases h

theorem controllerTurn_stuck {k : ControllerStep} {s : State} (h : controllerTurn k s = .fault .stuck) :
    anyEnabled s = false := by
  unfold controllerTurn at h
  split at h
  · cases h
  · exact hold_stuck h

theorem agentTurn_stuck {u : Turn} {s : State} (h : agentTurn u s = .fault .stuck) : anyEnabled s = false := by
  cases u with
  | host => exact hostTurn_stuck h
  | controller k => exact controllerTurn_stuck h

/-- A run ends stuck only where no agent has an enabled step (R11). -/
theorem stepBy_stuck {sched : Nat → Turn} {s : State} (h : stepBy sched s = .fault .stuck) :
    s.faults = [] ∧ anyEnabled s = false := by
  unfold stepBy at h
  split at h
  · cases h
  · rename_i hf
    exact ⟨hf, agentTurn_stuck (Result.map_fault h)⟩

theorem enabled_of_not_anyEnabled {s : State} (h : anyEnabled s = false) (k : ControllerStep) :
    enabled Config.hwFaultHang k s ≠ true := by
  simp only [anyEnabled, Bool.or_eq_false_iff, List.any_eq_false] at h
  exact h.2 k (by cases k <;> decide)

/-- Where a run ends stuck no completion, no release and no settle is outstanding (R189). -/
theorem stuck_leaves_nothing_outstanding {sched : Nat → Turn} {s : State} (h : stepBy sched s = .fault .stuck) :
    (s.inflight = none ∨ s.hung = true) ∧ (s.inflight = none → s.own = false → s.busy = false) ∧
    (s.prescaleSet = true → s.settled = true) := by
  obtain ⟨hf, hany⟩ := stepBy_stuck h
  have hno := enabled_of_not_anyEnabled hany
  refine ⟨?_, fun hin ho => ?_, fun hp => ?_⟩
  · obtain hin | ⟨c, hin⟩ := Option.eq_none_or_eq_some s.inflight
    · exact .inl hin
    · refine .inr (eq_true_of_ne_false fun hh => ?_)
      exact hno c.completion (enabled_completion.2 ⟨hf, ⟨c, hin, rfl⟩, hh⟩)
  · exact eq_false_of_ne_true fun hb => hno .release (enabled_release.2 ⟨hf, hin, ho, hb⟩)
  · exact eq_true_of_ne_false fun hs => hno .settle (enabled_settle.2 ⟨hf, hp, hs⟩)

/-! A fair run that hangs. -/

/-- A STOP in flight on the hang step's turn, with a host that has a STATUS read to make. -/
def aboutToHang : State :=
  { State.resetWith default with
    prescale := 1#32, prescaleSet := true, settled := true, inflight := some .stop,
    program := [.register loadStatus], turn := .controller .hang, ticks := 0 }

/-- The controller hangs in its first turn, and has every turn after it. -/
def hangingRun : Nat → State
  | 0 => aboutToHang
  | n + 1 => { hang aboutToHang with ticks := n + 1 }

theorem hangingRun_isRun : IsRun (fun _ => .controller .hang) hangingRun
  | 0 => rfl
  | _ + 1 => rfl

/-- Once hung, no fair step is enabled any more, so that none is owed a turn (R187, R189). -/
theorem hangingRun_weaklyFair : WeaklyFair hangingRun := by
  intro k hfair n henabled
  have he : enabled Config.hwFaultHang k (hangingRun (n + 1)) = true := henabled (n + 1) (Nat.le_succ n)
  obtain ⟨c, rfl⟩ | rfl | rfl | rfl := controllerStep_kinds k
  · obtain ⟨-, -, hh⟩ := enabled_completion.1 he
    cases hh
  · obtain ⟨-, hin, -⟩ := enabled_release.1 he
    cases hin
  · cases hfair
  · obtain ⟨-, -, hs⟩ := enabled_settle.1 he
    cases hs

theorem hangingRun_hung {n : Nat} (hn : 0 < n) : (hangingRun n).inflight ≠ none ∧ (hangingRun n).hung = true := by
  cases n with
  | zero => cases hn
  | succ n => exact ⟨nofun, rfl⟩

/-- Settles O43: an enabled fair step is kept until it is taken or overtaken, which a fair run cannot put off for ever;
a stuck state has no enabled step; and `hangingRun` hangs. -/
theorem fairRunsCompleteReleaseAndSettle : Obligations.FairRunsCompleteReleaseAndSettle := by
  refine ⟨fun s t k hfair h hk hturn hhang hf => ?_, fun sched r n hrun hfair => ?_,
    fun sched s => stuck_leaves_nothing_outstanding,
    _, hangingRun, hangingRun_isRun, hangingRun_weaklyFair, fun n => hangingRun_hung⟩
  · obtain hnext | htaken | ⟨hhung, -⟩ | hissued := stepBy_keeps_enabled hfair h hf hk
    · exact .inl hnext
    · exact absurd htaken hturn
    · exact absurd hhung hhang
    · exact .inr hissued
  · exact ⟨hrun.exists_completed hfair, hrun.exists_released hfair, hrun.exists_settled hfair⟩

end Sys2Proof.Machine
end

section
/-! PROOFS. The host's turn in a running operation (R213 to R219): the access the driver makes at each position, as an
exact next state, and the procedures `send_byte`, `recv_byte` and `stop_sequence` of these turns. -/

namespace Sys2Proof.Machine

/-! The accesses the driver spells (R107, R112, R113). -/

theorem decode_loadStatus : decode loadStatus = .ok .statusRead := decodeOfEncodeIsTheInstruction .statusRead rfl

theorem decode_loadData : decode loadData = .ok .dataRead := decodeOfEncodeIsTheInstruction .dataRead rfl

theorem decode_storeData (b : Byte) : decode (storeData b) = .ok (.dataWrite b) :=
  decodeOfEncodeIsTheInstruction (.dataWrite b) rfl

theorem decode_storePrescale (v : Word) : decode (storePrescale v) = .ok (.prescaleWrite v) :=
  decodeOfEncodeIsTheInstruction (.prescaleWrite v) rfl

theorem decode_cmdStart : decode cmdStart = .ok (.ctrlWrbyte false) :=
  decodeOfEncodeIsTheInstruction (.ctrlWrbyte false) rfl

theorem decode_cmdStop : decode cmdStop = .ok (.ctrlStop false) := decodeOfEncodeIsTheInstruction (.ctrlStop false) rfl

/-- The read command decodes to the row that records its acknowledge bit (R146, R147). -/
theorem decode_cmdRead (k : Bool) : ∃ i, decode (cmdRead k) = .ok i ∧
    ∀ s, exec i s = guarded (rdByteChecks s) s (s.issue (.rdByte k)) := by
  cases k
  · exact ⟨_, decodeOfEncodeIsTheInstruction (.ctrlRdbyteNack false) rfl, fun _ => rfl⟩
  · exact ⟨_, decodeOfEncodeIsTheInstruction (.ctrlRdbyteAck false) rfl, fun _ => rfl⟩

/-- `SW DATA` of a byte, as the word of R155. -/
theorem storeData_eq_or (b : Byte) : storeData b = 0x8800000000#40 ||| b.setWidth 40 := dataWriteStoresTheByte.1 b

/-! What an access leaves. -/

/-- `s` after the running operation has made the window access `d`, and stands at `b`. -/
def State.performed (s : State) (d : Descriptor) (b : Activation) : State :=
  { s with accesses := s.accesses ++ [d], driver := some b }

/-- `s` after a STATUS read (R153). -/
def State.statusLoaded (s : State) : State := (s.load (statusWord (Config.anyUInt27 s.draws) s)).drew 1

/-- The result code `classify` reads from the flags of `s` (R215). -/
def State.classified (s : State) : ResultCode :=
  if s.arbLost then .arbLost else if s.error then .error else if s.ack then .ok else .nack

theorem arbLost_of_classified_ok {s : State} (h : s.classified = .ok) : s.arbLost = false := by
  cases hl : s.arbLost
  · rfl
  · simp [State.classified, hl] at h

/-- `s` after CMD START past its checks (R145). -/
def State.sending (s : State) : State :=
  if s.own then s.issue (.wrByte false) else s.startCondition.issue (.wrByte true)

theorem exec_ctrlWrbyte_of_checks (ackEn : Bool) {s : State} (hin : s.inflight = none) (hc : Configured s)
    (hd : s.data.isSome = true) (ho : s.own = true ∨ s.busy = false) :
    exec (.ctrlWrbyte ackEn) s = .next s.sending :=
  guarded_pass s _ ((wrByteChecks_pass s).2 ⟨hin, hc, hd, ho⟩)

theorem sending_inflight (s : State) : s.sending.inflight = some (.wrByte (!s.own)) := by
  cases ho : s.own <;> simp [State.sending, ho]

/-- CMD START takes the bus, clears DONE, and touches neither PRESCALE nor DATA (R143, R145). -/
theorem sending_fields (s : State) : s.sending.own = true ∧ s.sending.done = false ∧ s.sending.faults = s.faults ∧
    s.sending.program = s.program ∧ (Configured s.sending ↔ Configured s) := by
  cases ho : s.own
  · simp only [State.sending, ho, Bool.false_eq_true, if_false]
    exact ⟨rfl, rfl, rfl, rfl, Iff.rfl⟩
  · simp only [State.sending, ho, if_true]
    exact ⟨ho, rfl, rfl, rfl, Iff.rfl⟩

/-! The host's turn. -/

/-- A step on the host's turn. -/
theorem step_of_hostTurn {s u : State} (hf : s.faults = []) (ht : s.turn = .host) (h : hostTurn s = .next u) :
    step s = .next u.choose :=
  step_of_turn hf (by rwa [ht])

section
variable {s : State} {a : Activation} (hf : s.faults = []) (ha : s.driver = some a)
include hf ha

omit hf in
/-- The turn of a running operation at an access that records no fault. -/
theorem hostTurn_of_access {d : Descriptor} {i : Instr} {u : State} {b : Activation} (hact : a.action = .register d)
    (hd : decode d = .ok i) (he : exec i s = .next u) (hu : u.faults = []) (hnext : a.next u.loaded = b) :
    hostTurn s = .next (u.performed d b) := by
  obtain ⟨-, hdriver, -⟩ := (exec_effect he).host
  have hadvance : hostAdvance (u.logAccess d) = u.performed d b := by
    rw [← hnext]
    exact hostAdvance_of_driver hu (hdriver.trans ha)
  simp [hostTurn, hostAction_of_driver ha, hact, registerAccess_of hd he, hadvance]

omit hf in
/-- The turn of a running operation at an access that faults: the operation stays where it is (log 19). -/
theorem hostTurn_of_fault {d : Descriptor} {i : Instr} {r : FaultReason} (hact : a.action = .register d)
    (hd : decode d = .ok i) (he : exec i s = .next (s.recordFault r)) :
    hostTurn s = .next ((s.recordFault r).logAccess d) := by
  have hstays : hostAdvance ((s.recordFault r).logAccess d) = (s.recordFault r).logAccess d :=
    hostAdvance_of_fault (by simp)
  simp [hostTurn, hostAction_of_driver ha, hact, registerAccess_of hd he, hstays]

/-- The turn of a running operation at a STATUS read. -/
theorem hostTurn_of_status {b : Activation} (hact : a.action = .register loadStatus)
    (hnext : a.next (statusWord (Config.anyUInt27 s.draws) s) = b) :
    hostTurn s = .next (s.statusLoaded.performed loadStatus b) :=
  hostTurn_of_access ha hact decode_loadStatus rfl hf hnext

/-! `init` (R219). -/

theorem hostTurn_writePrescale {p : Word} (hj : a.job = .init p) (hp : a.pos = .writePrescale)
    (hin : s.inflight = none) (ho : s.own = false) :
    hostTurn s = .next (State.performed { s with prescale := p, prescaleSet := true, settled := false }
      (storePrescale p) (a.goto .delaySettle)) :=
  hostTurn_of_access ha (by simp [Activation.action, hp, hj]) (decode_storePrescale p)
    (guarded_pass s _ ((prescaleChecks_pass s).2 ⟨hin, ho⟩)) hf (by simp [Activation.next, hp])

omit hf in
theorem hostTurn_writePrescale_of_busy {p : Word} (hj : a.job = .init p) (hp : a.pos = .writePrescale)
    (hbusy : s.inflight ≠ none ∨ s.own = true) :
    hostTurn s = .next ((s.recordFault .prescaleBusy).logAccess (storePrescale p)) :=
  hostTurn_of_fault ha (by simp [Activation.action, hp, hj]) (decode_storePrescale p)
    (guarded_fail s _ (prescaleChecks_fail hbusy))

theorem hostTurn_delaySettle (hp : a.pos = .delaySettle) (hs : s.settled = true) :
    hostTurn s = .next { s with driver := some (a.goto .ret) } := by
  have hadvance : hostAdvance s = { s with driver := some (a.goto .ret) } := by
    rw [hostAdvance_of_driver hf ha]
    simp [Activation.next, hp]
  simp [hostTurn, hostAction_of_driver ha, Activation.action, hp, hs, hadvance]

/-! `wait_bus_free` and `send_byte` (R213, R216). -/

theorem hostTurn_waitFree (hp : a.pos = .waitFree) : hostTurn s =
    .next (s.statusLoaded.performed loadStatus (if s.busy then a else a.send a.addressByte)) :=
  hostTurn_of_status hf ha (by simp [Activation.action, hp]) (by cases hb : s.busy <;> simp [Activation.next, hp, hb])

theorem hostTurn_sendData (hp : a.pos = .sendData) (hin : s.inflight = none) :
    hostTurn s = .next (State.performed { s with data := some a.byte } (storeData a.byte) (a.goto .sendStart)) :=
  hostTurn_of_access ha (by simp [Activation.action, hp]) (decode_storeData a.byte)
    (guarded_pass s _ (by simp [hin])) hf (by simp [Activation.next, hp])

theorem hostTurn_sendStart (hp : a.pos = .sendStart) (hin : s.inflight = none) (hc : Configured s)
    (hd : s.data.isSome = true) (ho : s.own = true ∨ s.busy = false) :
    hostTurn s = .next (s.sending.performed cmdStart (a.goto .sendWait)) := by
  obtain ⟨-, -, hfaults, -⟩ := sending_fields s
  exact hostTurn_of_access ha (by simp [Activation.action, hp]) decode_cmdStart
    (exec_ctrlWrbyte_of_checks false hin hc hd ho) (hfaults.trans hf) (by simp [Activation.next, hp])

theorem hostTurn_sendWait (hp : a.pos = .sendWait) : hostTurn s =
    .next (s.statusLoaded.performed loadStatus (if s.done then a.goto .sendClassify else a)) :=
  hostTurn_of_status hf ha (by simp [Activation.action, hp]) (by simp [Activation.next, hp])

theorem hostTurn_sendClassify (hp : a.pos = .sendClassify) : hostTurn s =
    .next (s.statusLoaded.performed loadStatus (Activation.afterSend { a with result := s.classified })) :=
  hostTurn_of_status hf ha (by simp [Activation.action, hp])
    (by cases hk : s.ack <;> simp [Activation.next, hp, classify_statusWord, State.classified, hk])

/-! `recv_byte` (R217). -/

theorem hostTurn_recvCommand (hp : a.pos = .recvCommand) (hin : s.inflight = none) (hc : Configured s)
    (ho : s.own = true) : hostTurn s =
    .next ((s.issue (.rdByte (a.index + 1 != a.job.length))).performed (cmdRead (a.index + 1 != a.job.length))
      (a.goto .recvWait)) := by
  obtain ⟨i, hd, he⟩ := decode_cmdRead (a.index + 1 != a.job.length)
  exact hostTurn_of_access ha (by simp [Activation.action, hp]) hd
    ((he s).trans (guarded_pass s _ ((rdByteChecks_pass s).2 ⟨hin, hc, ho⟩))) hf (by simp [Activation.next, hp])

omit hf in
theorem hostTurn_recvCommand_of_not_own (hp : a.pos = .recvCommand) (hin : s.inflight = none) (hc : Configured s)
    (ho : s.own = false) : hostTurn s =
    .next ((s.recordFault .readNotOwner).logAccess (cmdRead (a.index + 1 != a.job.length))) := by
  obtain ⟨i, hd, he⟩ := decode_cmdRead (a.index + 1 != a.job.length)
  exact hostTurn_of_fault ha (by simp [Activation.action, hp]) hd
    ((he s).trans (guarded_fail s _ (rdByteChecks_readNotOwner hin hc ho)))

theorem hostTurn_recvWait (hp : a.pos = .recvWait) : hostTurn s =
    .next (s.statusLoaded.performed loadStatus (if s.done then a.goto .recvData else a)) :=
  hostTurn_of_status hf ha (by simp [Activation.action, hp]) (by simp [Activation.next, hp])

theorem hostTurn_recvData {b : Byte} (hp : a.pos = .recvData) (hin : s.inflight = none) (hd : s.data = some b) :
    hostTurn s = .next (((s.load (dataWord (Config.anyUInt24 s.draws) b)).drew 1).performed loadData
      { a with byte := b, pos := .storeByte }) :=
  hostTurn_of_access ha (by simp [Activation.action, hp]) decode_loadData (exec_dataRead_of_byte hin hd) hf
    (by simp [Activation.next, hp])

/-! `stop_sequence` (R218). -/

theorem hostTurn_stopCommand (hp : a.pos = .stopCommand) (hin : s.inflight = none) (hc : Configured s) :
    hostTurn s = .next ((s.issue .stop).performed cmdStop (a.goto .stopWait)) :=
  hostTurn_of_access ha (by simp [Activation.action, hp]) decode_cmdStop
    (guarded_pass s _ ((commandChecks_pass s).2 ⟨hin, hc⟩)) hf (by simp [Activation.next, hp])

theorem hostTurn_stopWait (hp : a.pos = .stopWait) : hostTurn s =
    .next (s.statusLoaded.performed loadStatus (if s.done then a.goto .stopFree else a)) :=
  hostTurn_of_status hf ha (by simp [Activation.action, hp]) (by simp [Activation.next, hp])

theorem hostTurn_stopFree (hp : a.pos = .stopFree) : hostTurn s =
    .next (s.statusLoaded.performed loadStatus (if s.busy then a else a.afterStop)) :=
  hostTurn_of_status hf ha (by simp [Activation.action, hp]) (by cases hb : s.busy <;> simp [Activation.next, hp, hb])

omit hf in
theorem hostTurn_ret (hp : a.pos = .ret) : hostTurn s = .next (returnCall a.returned s) := by
  simp [hostTurn, hostAction_of_driver ha, Activation.action, hp]

end

/-! What the turns say of the procedures. -/

/-- Settles O47: the flags of the word the driver reads are the state's. -/
theorem classifyMapsTheFlags : Obligations.ClassifyMapsTheFlags := by
  intro u s
  simp +contextual [classify_statusWord]

/-- Settles O48: the turn at each position of `send_byte`. -/
theorem sendByteRunsItsProcedure : Obligations.SendByteRunsItsProcedure := by
  intro s a hf ht ha
  refine ⟨fun hp hin => ?_, fun hp hin hc hd ho => ?_, fun hp => ?_, fun hp => ?_⟩
  · rw [← storeData_eq_or]
    exact ⟨_, step_of_hostTurn hf ht (hostTurn_sendData hf ha hp hin), rfl, rfl, rfl⟩
  · have hturn := hostTurn_sendStart hf ha hp hin hc (Option.isSome_iff_ne_none.2 hd) ho
    obtain ⟨hown, hdone, -⟩ := sending_fields s
    have haccesses : s.sending.accesses = s.accesses := by
      unfold State.sending
      split <;> rfl
    exact ⟨_, step_of_hostTurn hf ht hturn, sending_inflight s, hown, hdone, congrArg (· ++ [cmdStart]) haccesses, rfl⟩
  · exact ⟨_, step_of_hostTurn hf ht (hostTurn_sendWait hf ha hp), rfl, rfl⟩
  · exact ⟨_, step_of_hostTurn hf ht (hostTurn_sendClassify hf ha hp), rfl, rfl⟩

/-- CMD READ_NACK for the last byte, CMD READ_ACK for the others (R113, R217). -/
theorem cmdRead_of_index (a : Activation) : cmdRead (a.index + 1 != a.job.length) =
    if a.index + 1 = a.job.length then 0x8000000004#40 else 0x800000000C#40 := by
  by_cases h : a.index + 1 = a.job.length
  · rw [if_pos h, bne_eq_false_iff_eq.2 h]
    rfl
  · rw [if_neg h, bne_iff_ne.2 h]
    rfl

/-- Settles O49: the turn at each position of `recv_byte`. -/
theorem receiveByteRunsItsProcedure : Obligations.ReceiveByteRunsItsProcedure := by
  intro s a hf ht ha
  refine ⟨fun hp hin hc => ⟨fun ho => ?_, fun ho => ?_⟩, fun hp => ?_, fun b hp hin hd => ?_⟩
  · rw [← cmdRead_of_index]
    exact ⟨_, step_of_hostTurn hf ht (hostTurn_recvCommand hf ha hp hin hc ho), rfl, rfl, rfl⟩
  · have hturn := hostTurn_recvCommand_of_not_own ha hp hin hc ho
    exact ⟨_, step_of_hostTurn hf ht hturn, congrArg (· ++ [FaultReason.readNotOwner]) hf, ha⟩
  · exact ⟨_, step_of_hostTurn hf ht (hostTurn_recvWait hf ha hp), rfl, rfl⟩
  · exact ⟨_, step_of_hostTurn hf ht (hostTurn_recvData hf ha hp hin hd), rfl, rfl⟩

theorem nextCandidate_result (a : Activation) : a.nextCandidate.result = a.result := by
  unfold Activation.nextCandidate
  split <;> rfl

/-- What follows `stop_sequence` keeps the result held before it (R233). -/
theorem afterStop_result (a : Activation) : a.afterStop.result = a.result := by
  unfold Activation.afterStop
  split
  · rfl
  · rfl
  · rfl
  · split
    · rfl
    · exact nextCandidate_result a

/-- Settles O50: the turn at each position of `stop_sequence`. -/
theorem stopSequenceRunsItsProcedure : Obligations.StopSequenceRunsItsProcedure := by
  intro s a hf ht ha
  refine ⟨fun hp hin hc => ?_, fun hp => ?_, fun hp => ?_, rfl, rfl, afterStop_result a⟩
  · exact ⟨_, step_of_hostTurn hf ht (hostTurn_stopCommand hf ha hp hin hc), rfl, rfl, rfl⟩
  · exact ⟨_, step_of_hostTurn hf ht (hostTurn_stopWait hf ha hp), rfl, rfl⟩
  · exact ⟨_, step_of_hostTurn hf ht (hostTurn_stopFree hf ha hp), rfl, rfl⟩

end Sys2Proof.Machine
end

section
/-! PROOFS. Calls (R219, R232): a guarded call, and `init` from its call to its return. -/

namespace Sys2Proof.Machine

/-- The guard of `write`, `read` and `scan`, as the spec words it (R220, R221, R224). -/
theorem badArgument_iff {buffer len : Word} : badArgument buffer len = true ↔ buffer = 0#32 ∨ len.toInt ≤ 0 := by
  simp [badArgument]

theorem enterRead_of_badArgument (addr : DeviceAddr) {buffer len : Word} (h : badArgument buffer len = true) :
    enterRead addr buffer len = .inl (.status .error) := if_pos h

/-- A call that returns at once leaves all but the program and the results (R232). -/
theorem beginCall_of_return {c : Call} {s : State} {r : Returned} (hplace : ∀ slot, c.placeArgument slot s = s)
    (henter : ∀ slot, c.enter slot = .inl r) :
    beginCall c s = { s with program := s.program.tail, results := s.results ++ [r] } := by
  simp [beginCall, hplace, henter]

/-- Settles O51: each guard returns before anything is placed or entered. -/
theorem guardedCallsTouchNothing : Obligations.GuardedCallsTouchNothing := by
  intro s c rest r hf ht hd hprog hguard
  obtain ⟨hplace, henter⟩ : (∀ slot, c.placeArgument slot s = s) ∧ ∀ slot, c.enter slot = .inl r := by
    obtain ⟨addr, data, len, rfl | rfl, hbad, rfl⟩ | ⟨addr, rfl, rfl⟩ | ⟨found, maxFound, rfl, hbad, rfl⟩ := hguard
    · exact ⟨fun _ => rfl, fun _ => if_pos (badArgument_iff.2 hbad)⟩
    · exact ⟨fun _ => rfl, fun _ => enterRead_of_badArgument addr (badArgument_iff.2 hbad)⟩
    · exact ⟨fun _ => rfl, fun _ => enterRead_of_badArgument addr (badArgument_iff.2 (.inl rfl))⟩
    · exact ⟨fun _ => rfl, fun _ => if_pos (badArgument_iff.2 hbad)⟩
  rw [step_of_call hf ht hd hprog, beginCall_of_return hplace henter, hprog]
  rfl

/-- `DELAY_SETTLE` holds while the settle step is outstanding (R219). -/
theorem step_delaySettle_unsettled {s : State} {a : Activation} (hf : s.faults = []) (ht : s.turn = .host)
    (ha : s.driver = some a) (hp : a.pos = .delaySettle) (hs : s.settled = false) (hset : s.prescaleSet = true) :
    step s = .next { s with turn := Config.schedule s.ticks, ticks := s.ticks + 1 } := by
  have hwaits : hostEnabled s = false := by
    simp [hostEnabled, hostAction_of_driver ha, Activation.action, hp, hs]
  have hsettle : anyEnabled s = true := by
    simp [anyEnabled, controllerSteps, enabled_settle.2 ⟨hf, hset, hs⟩]
  exact (agentWithoutStepHolds s hf (.inl ⟨ht, hwaits⟩)).1 hsettle

/-- Settles O52: the entry, the turn at each position of `init`, and its return. -/
theorem initWritesPrescaleAndWaits : Obligations.InitWritesPrescaleAndWaits := by
  intro s a p hf ht hj
  refine ⟨fun rest hd hprog => ?_, fun ha hp hin ho => ?_, fun ha hp hbusy => ?_,
    fun ha hp hs hset => step_delaySettle_unsettled hf ht ha hp hs hset, fun ha hp hs => ?_, fun ha hp => ?_⟩
  · exact ⟨_, _, step_of_call hf ht hd hprog, rfl, rfl, rfl⟩
  · exact ⟨_, _, step_of_hostTurn hf ht (hostTurn_writePrescale hf ha hj hp hin ho), rfl, rfl, rfl, rfl, hj, rfl⟩
  · have hturn := hostTurn_writePrescale_of_busy ha hj hp hbusy
    exact ⟨_, step_of_hostTurn hf ht hturn, congrArg (· ++ [FaultReason.prescaleBusy]) hf, rfl⟩
  · exact ⟨_, _, step_of_hostTurn hf ht (hostTurn_delaySettle hf ha hp hs), rfl, hj, rfl⟩
  · have hreturned : a.returned = .status .ok := by simp [Activation.returned, hj]
    rw [← hreturned]
    exact ⟨_, step_of_hostTurn hf ht (hostTurn_ret ha hp), rfl, rfl, by rw [hreturned]; rfl⟩

end Sys2Proof.Machine
end

section
/-! PROOFS. The moves of a running operation (R213 to R224), said once: which move the host's turn makes at each
position where the driver's invariant holds. -/

namespace Sys2Proof.Machine

/-- `s` with one byte stored in host RAM (R85). -/
def State.stored (s : State) (addr : Nat) (b : Byte) : State := { s with memory := Memory.write s.memory addr b }

/-- The moves of the operation `a` with the block at `s` (R213 to R224): the block and the host RAM a move leaves, and
where the operation then stands. -/
inductive Move (a : Activation) (s : State) : State → Activation → Prop where
  | writePrescale (p : Word) (hj : a.job = .init p) (hp : a.pos = .writePrescale) :
      Move a s { s with prescale := p, prescaleSet := true, settled := false } (a.goto .delaySettle)
  | delaySettle (hp : a.pos = .delaySettle) (hs : s.settled = true) : Move a s s (a.goto .ret)
  /-- A poll that does not yet see what it waits for. -/
  | poll : Move a s s a
  | waitFree (hp : a.pos = .waitFree) (hb : s.busy = false) : Move a s s (a.send a.addressByte)
  | sendData (hp : a.pos = .sendData) : Move a s { s with data := some a.byte } (a.goto .sendStart)
  | sendStart (hp : a.pos = .sendStart) : Move a s s.sending (a.goto .sendWait)
  | sendWait (hp : a.pos = .sendWait) (hd : s.done = true) : Move a s s (a.goto .sendClassify)
  | sendMore (addr : DeviceAddr) (data len : Word) (hj : a.job = .write addr data len) (hp : a.pos = .sendClassify)
      (hl : a.index < a.job.length) (hr : s.arbLost = false) :
      Move a s s { a with result := .ok, pos := .fetchByte }
  | sendRead (addr : DeviceAddr) (buffer len : Word) (hj : a.job = .read addr buffer len) (hp : a.pos = .sendClassify)
      (hr : s.arbLost = false) : Move a s s { a with result := .ok, pos := .recvCommand }
  | sendDone (r : ResultCode) (hp : a.pos = .sendClassify)
      (hr : ∀ addr buffer len, a.job = .read addr buffer len → r ≠ .ok) :
      Move a s s { a with result := r, pos := .stopCommand }
  | fetchByte (b : Byte) (hp : a.pos = .fetchByte) : Move a s s (a.sendPayload b)
  | recvCommand (hp : a.pos = .recvCommand) :
      Move a s (s.issue (.rdByte (a.index + 1 != a.job.length))) (a.goto .recvWait)
  | recvWait (hp : a.pos = .recvWait) (hd : s.done = true) : Move a s s (a.goto .recvData)
  | recvData (b : Byte) (hp : a.pos = .recvData) : Move a s s { a with byte := b, pos := .storeByte }
  | storeNext (hp : a.pos = .storeByte) (hl : a.index + 1 < a.job.length) :
      Move a s (s.stored (a.job.buffer + a.index) a.byte) { a with index := a.index + 1, pos := .recvCommand }
  | storeLast (hp : a.pos = .storeByte) (hl : a.job.length ≤ a.index + 1) :
      Move a s (s.stored (a.job.buffer + a.index) a.byte) { a with index := a.index + 1, pos := .stopCommand }
  | stopCommand (hp : a.pos = .stopCommand) : Move a s (s.issue .stop) (a.goto .stopWait)
  | stopWait (hp : a.pos = .stopWait) (hd : s.done = true) : Move a s s (a.goto .stopFree)
  | stopped (hp : a.pos = .stopFree) (hb : s.busy = false) : Move a s s (a.goto .ret)
  | found (found maxFound : Word) (hj : a.job = .scan found maxFound) (hp : a.pos = .stopFree) (hb : s.busy = false) :
      Move a s s (a.goto .recordFound)
  | probe (found maxFound : Word) (hj : a.job = .scan found maxFound) (hp : a.pos = .stopFree)
      (hc : a.candidate ≠ Config.scanLast) :
      Move a s s { a with candidate := a.candidate + 1#7, pos := .waitFree }
  | recordLast (hp : a.pos = .recordFound) :
      Move a s (s.stored (a.job.buffer + a.count) (a.candidate.setWidth 8)) { a with count := a.count + 1, pos := .ret }
  | recordNext (hp : a.pos = .recordFound) (hl : a.count + 1 ≠ a.job.length) (hc : a.candidate ≠ Config.scanLast) :
      Move a s (s.stored (a.job.buffer + a.count) (a.candidate.setWidth 8))
        { a with count := a.count + 1, candidate := a.candidate + 1#7, pos := .waitFree }

theorem Move.job {a b : Activation} {s u : State} (h : Move a s u b) : b.job = a.job := by
  cases h <;> rfl

/-- A move leaves the recorded faults and the program. -/
theorem Move.frame {a b : Activation} {s u : State} (h : Move a s u b) :
    u.faults = s.faults ∧ u.program = s.program := by
  cases h with
  | sendStart =>
    obtain ⟨-, -, hfaults, hprogram, -⟩ := sending_fields s
    exact ⟨hfaults, hprogram⟩
  | _ => exact ⟨rfl, rfl⟩

/-! What a position says of the job. -/

/-- `init` stands at no position of a transfer but its return (R219). -/
theorem Activation.InRange.ne_init {a : Activation} (h : a.InRange) (hp : a.pos.isTransfer = true) (hne : a.pos ≠ .ret)
    (p : Word) : a.job ≠ .init p := by
  intro hj
  obtain ⟨-, hpos | hpos | hpos⟩ : p ≠ 0#32 ∧ (a.pos = .writePrescale ∨ a.pos = .delaySettle ∨ a.pos = .ret) := by
    simpa only [Activation.InRange, hj] using h
  · simp [hpos, DriverPos.isTransfer] at hp
  · simp [hpos, DriverPos.isTransfer] at hp
  · exact hne hpos

/-- Only `init` stands at the PRESCALE write and waits in `DELAY_SETTLE` (R219). -/
theorem Activation.InRange.init_of_pos {a : Activation} (h : a.InRange)
    (hp : a.pos = .writePrescale ∨ a.pos = .delaySettle) : ∃ p, a.job = .init p ∧ p ≠ 0#32 := by
  cases hj : a.job with
  | init p =>
    simp only [Activation.InRange, hj] at h
    exact ⟨p, rfl, h.1⟩
  | write addr data len => obtain hp | hp := hp <;> simp [Activation.InRange, hj, hp, DriverPos.isTransfer] at h
  | read addr buffer len =>
    obtain hp | hp := hp <;> simp [Activation.InRange, hj, hp, DriverPos.isTransfer, DriverPos.isReceive] at h
  | scan found maxFound => obtain hp | hp := hp <;> simp [Activation.InRange, hj, hp, DriverPos.isTransfer] at h

/-- Only a `write` stands at the fetch of a byte, with one left to fetch (R220). -/
theorem Activation.InRange.write_of_fetchByte {a : Activation} (h : a.InRange) (hp : a.pos = .fetchByte) :
    ∃ addr data len, a.job = .write addr data len ∧ a.index < lengthOf len := by
  cases hj : a.job with
  | write addr data len => exact ⟨addr, data, len, rfl, h.index_lt_of_fetchByte hj hp⟩
  | init p => simp [Activation.InRange, hj, hp] at h
  | read addr buffer len => simp [Activation.InRange, hj, hp, DriverPos.isTransfer, DriverPos.isReceive] at h
  | scan found maxFound => simp [Activation.InRange, hj, hp, DriverPos.isTransfer] at h

/-- Before its loop a `read` has received nothing (R221). -/
theorem Activation.InRange.read_index_eq_zero {a : Activation} {addr : DeviceAddr} {buffer len : Word} (h : a.InRange)
    (hj : a.job = .read addr buffer len) (hp : a.pos.isSend = true) : a.index = 0 := by
  simp only [Activation.InRange, hj] at h
  obtain ⟨-, ⟨-, hzero⟩ | ⟨hrecv, -⟩⟩ := h
  · exact hzero hp
  · cases hpos : a.pos <;> simp [hpos, DriverPos.isSend, DriverPos.isReceive] at hp hrecv

/-- In its loop a `read` has a byte left to receive (R221). -/
theorem Activation.InRange.read_index_lt {a : Activation} {addr : DeviceAddr} {buffer len : Word} (h : a.InRange)
    (hj : a.job = .read addr buffer len) (hp : a.pos.isReceive = true) : a.index < a.job.length := by
  simp only [Activation.InRange, hj] at h ⊢
  obtain ⟨-, ⟨htransfer, -⟩ | ⟨-, hlt⟩⟩ := h
  · cases hpos : a.pos <;> simp [hpos, DriverPos.isTransfer, DriverPos.isReceive] at hp htransfer
  · exact hlt

/-- What a running `scan` keeps: room in its buffer, and a candidate in range ahead of the count (R224). -/
theorem Activation.InRange.scan_bounds {a : Activation} {found maxFound : Word} (h : a.InRange)
    (hj : a.job = .scan found maxFound) (hne : a.pos ≠ .ret) :
    a.count < lengthOf maxFound ∧ 8 ≤ a.candidate.toNat ∧ a.candidate.toNat ≤ 119 ∧
      a.count + 8 ≤ a.candidate.toNat := by
  simp only [Activation.InRange, hj] at h
  obtain ⟨-, -, -, hrun⟩ := h
  exact hrun hne

/-! The bytes a running operation accesses in host RAM are bytes of its buffer (R235). -/

section
variable {a : Activation} (hr : a.InRange) (hv : a.job.ValidBuffers)
include hr hv

theorem buffer_of_fetchByte (hp : a.pos = .fetchByte) : ∃ len, ValidBuffer a.job.buffer len ∧ a.index < len := by
  obtain ⟨addr, data, len, hj, hlt⟩ := hr.write_of_fetchByte hp
  rw [hj] at hv ⊢
  exact ⟨_, hv, hlt⟩

theorem buffer_of_storeByte (hp : a.pos = .storeByte) : ∃ len, ValidBuffer a.job.buffer len ∧ a.index < len := by
  obtain ⟨addr, buffer, len, hj, hlt⟩ := hr.read_of_storeByte hp
  rw [hj] at hv ⊢
  exact ⟨_, hv, hlt⟩

theorem buffer_of_recordFound (hp : a.pos = .recordFound) : ∃ len, ValidBuffer a.job.buffer len ∧ a.count < len := by
  obtain ⟨found, maxFound, hj, hlt⟩ := hr.scan_of_recordFound hp
  obtain ⟨-, -, hlast, hahead⟩ := hr.scan_bounds hj (by simp [hp])
  rw [hj] at hv ⊢
  exact ⟨_, hv, Nat.lt_min.2 ⟨hlt, by omega⟩⟩

end

/-- A 1-byte access in a valid buffer goes to host RAM, inside the address space (R85, R235). -/
theorem ValidBuffer.byte_ram {start len i : Nat} {acc : HostAccess} (h : ValidBuffer start len) (hlt : i < len)
    (haddr : acc.addr = start + i) (hsize : acc.size = .byte) :
    acc.addr + acc.size.bytes ≤ Config.addressSpace ∧ admission Config.i2cBase acc = .ram := by
  obtain ⟨hspace, hwindow⟩ := h
  have hbytes : acc.size.bytes = 1 := by rw [hsize]; rfl
  exact ⟨by omega, admit_byte_outside _ _ hsize (by omega)⟩

/-- A load inside the address space delivers a value and draws what it must. -/
theorem ramAccess_of_load {acc : HostAccess} (s : State) (hspace : acc.addr + acc.size.bytes ≤ Config.addressSpace)
    (hw : acc.write = false) : ∃ v n, ramAccess acc s = .next ((s.drew n).load v) := by
  obtain ⟨n, hn⟩ := ramLoad_state acc.size.bytes acc.addr s
  exact ⟨(ramLoad acc.size.bytes acc.addr s).1, n, by simp [ramAccess, Nat.not_lt.2 hspace, hw, hn]⟩

theorem ramAccess_writeByteAt {addr : Nat} (b : Byte) (s : State) (hspace : addr + 1 ≤ Config.addressSpace) :
    ramAccess (writeByteAt addr b) s = .next (s.stored addr b) := by
  simp [ramAccess, writeByteAt, AccessSize.bytes, Nat.not_lt.2 hspace, ramStore, State.stored]

/-! Where the tests of the driver lead. -/

/-- After `send_byte` a `write` or a `read` goes on with result OK alone (R220, R221, R224). -/
theorem Move.afterSend {a : Activation} {s : State} (hr : a.InRange) (hp : a.pos = .sendClassify) :
    Move a s s (Activation.afterSend { a with result := s.classified }) := by
  unfold Activation.afterSend
  dsimp only
  split
  · rename_i p hj
    exact absurd hj (hr.ne_init (by rw [hp]; rfl) (by simp [hp]) p)
  · rename_i hj
    split
    · rename_i h
      obtain ⟨hok, hl⟩ := h
      rw [hok]
      exact .sendMore _ _ _ hj hp hl (arbLost_of_classified_ok hok)
    · exact .sendDone _ hp (by simp [hj])
  · rename_i hj
    split
    · rename_i hok
      rw [hok]
      exact .sendRead _ _ _ hj hp (arbLost_of_classified_ok hok)
    · rename_i hno
      exact .sendDone _ hp (fun _ _ _ _ => hno)
  · rename_i hj
    exact .sendDone _ hp (by simp [hj])

/-- After `stop_sequence` an operation returns, but for a `scan`, which records a candidate found and probes the next
(R220, R221, R224). -/
theorem Move.afterStop {a : Activation} {s : State} (hp : a.pos = .stopFree) (hb : s.busy = false) :
    Move a s s a.afterStop := by
  unfold Activation.afterStop
  split
  · exact .stopped hp hb
  · exact .stopped hp hb
  · exact .stopped hp hb
  · rename_i hj
    split
    · exact .found _ _ hj hp hb
    · rw [Activation.nextCandidate]
      split
      · exact .stopped hp hb
      · exact .probe _ _ hj hp (by assumption)

/-! The move the host's turn makes. -/

/-- `t` is `u` with the host at `d`, but for the host's variable, its records and the choice of who moves next. -/
structure StandsAt (u : State) (d : Option Activation) (t : State) : Prop where
  block : SameBlock u t
  memory : t.memory = u.memory
  program : t.program = u.program
  driver : t.driver = d

theorem standsAt_of_goto (s : State) (b : Activation) : StandsAt s (some b) { s with driver := some b } :=
  ⟨by constructor <;> rfl, rfl, rfl, rfl⟩

theorem standsAt_of_access (s : State) (d : Descriptor) (b : Activation) : StandsAt s (some b) (s.performed d b) :=
  ⟨by constructor <;> rfl, rfl, rfl, rfl⟩

theorem standsAt_of_read (s : State) (v : Word) (d : Descriptor) (b : Activation) :
    StandsAt s (some b) (((s.load v).drew 1).performed d b) :=
  ⟨by constructor <;> rfl, rfl, rfl, rfl⟩

theorem StandsAt.choose {u t : State} {d : Option Activation} (h : StandsAt u d t) : StandsAt u d t.choose :=
  ⟨h.block.trans (sameBlock_chooseBy _ t), h.memory, h.program, h.driver⟩

/-- The host's turn makes a move of the running operation. -/
def TurnMoves (a : Activation) (s : State) : Prop :=
  ∃ u b t, Move a s u b ∧ StandsAt u (some b) t ∧ hostTurn s = .next t

section
variable {s : State} {a : Activation} (hf : s.faults = []) (ha : s.driver = some a)
include hf ha

theorem turnMoves_of_store {addr : Nat} {byte : Byte} {b : Activation}
    (hact : a.action = .memory (writeByteAt addr byte))
    (hbuf : addr + 1 ≤ Config.addressSpace ∧ admission Config.i2cBase (writeByteAt addr byte) = .ram)
    (hnext : a.next s.loaded = b) (hm : Move a s (s.stored addr byte) b) : TurnMoves a s := by
  obtain ⟨hspace, hram⟩ := hbuf
  have hadvance : hostAdvance (s.stored addr byte) = { s.stored addr byte with driver := some b } := by
    rw [← hnext]
    exact hostAdvance_of_driver hf ha
  refine ⟨_, b, _, hm, standsAt_of_goto (s.stored addr byte) b, ?_⟩
  simp [hostTurn, hostAction_of_driver ha, hact, memoryAccess, hram, ramAccess_writeByteAt byte s hspace, hadvance]

theorem turnMoves_of_fetchByte (hp : a.pos = .fetchByte) (hr : a.InRange) (hv : a.job.ValidBuffers) :
    TurnMoves a s := by
  obtain ⟨len, hbuf, hlt⟩ := buffer_of_fetchByte hr hv hp
  have hact : a.action = .memory (readByteAt (a.job.buffer + a.index)) := by simp [Activation.action, hp]
  obtain ⟨hspace, hram⟩ := hbuf.byte_ram (acc := readByteAt (a.job.buffer + a.index)) hlt rfl rfl
  obtain ⟨v, n, he⟩ := ramAccess_of_load s hspace rfl
  have hadvance : hostAdvance ((s.drew n).load v) =
      { (s.drew n).load v with driver := some (a.sendPayload (lowByte v)) } := by
    have hnext : a.next v = a.sendPayload (lowByte v) := by simp [Activation.next, hp]
    rw [← hnext]
    exact hostAdvance_of_driver hf ha
  refine ⟨s, _, { (s.drew n).load v with driver := some (a.sendPayload (lowByte v)) }, .fetchByte (lowByte v) hp,
    ⟨by constructor <;> rfl, rfl, rfl, rfl⟩, ?_⟩
  simp [hostTurn, hostAction_of_driver ha, hact, memoryAccess, hram, he, hadvance]

theorem turnMoves_of_storeByte (hp : a.pos = .storeByte) (hr : a.InRange) (hv : a.job.ValidBuffers) :
    TurnMoves a s := by
  obtain ⟨len, hbuf, hlt⟩ := buffer_of_storeByte hr hv hp
  have hact : a.action = .memory (writeByteAt (a.job.buffer + a.index) a.byte) := by simp [Activation.action, hp]
  have hram := hbuf.byte_ram (acc := writeByteAt (a.job.buffer + a.index) a.byte) hlt rfl rfl
  by_cases hl : a.index + 1 < a.job.length
  · exact turnMoves_of_store hf ha hact hram (by simp [Activation.next, hp, hl]) (.storeNext hp hl)
  · exact turnMoves_of_store hf ha hact hram (by simp [Activation.next, hp, hl]) (.storeLast hp (Nat.le_of_not_lt hl))

theorem turnMoves_of_recordFound (hp : a.pos = .recordFound) (hr : a.InRange) (hv : a.job.ValidBuffers) :
    TurnMoves a s := by
  obtain ⟨len, hbuf, hlt⟩ := buffer_of_recordFound hr hv hp
  have hact : a.action = .memory (writeByteAt (a.job.buffer + a.count) (a.candidate.setWidth 8)) := by
    simp [Activation.action, hp]
  have hram := hbuf.byte_ram (acc := writeByteAt (a.job.buffer + a.count) (a.candidate.setWidth 8)) hlt rfl rfl
  by_cases hl : a.count + 1 = a.job.length
  · exact turnMoves_of_store hf ha hact hram (by simp [Activation.next, hp, hl]) (.recordLast hp)
  · by_cases hc : a.candidate = Config.scanLast
    · exact turnMoves_of_store hf ha hact hram
        (by simp [Activation.next, hp, hl, Activation.nextCandidate, hc, Activation.goto]) (.recordLast hp)
    · exact turnMoves_of_store hf ha hact hram
        (by simp [Activation.next, hp, hl, Activation.nextCandidate, hc]) (.recordNext hp hl hc)

end

theorem turnMoves_of_status {s : State} {a b : Activation}
    (hturn : hostTurn s = .next (s.statusLoaded.performed loadStatus b)) (hm : Move a s s b) : TurnMoves a s :=
  ⟨s, b, _, hm, standsAt_of_read s _ _ b, hturn⟩

/-- A poll stays until DONE is set (R214). -/
theorem Move.until_done {s : State} {a b : Activation} (h : s.done = true → Move a s s b) :
    Move a s s (if s.done then b else a) := by
  split
  · exact h (by assumption)
  · exact .poll

/-- A poll stays while BUSY is set (R213). -/
theorem Move.while_busy {s : State} {a b : Activation} (h : s.busy = false → Move a s s b) :
    Move a s s (if s.busy then a else b) := by
  split
  · exact .poll
  · exact h (by simpa using ‹¬s.busy = true›)

/-- A row of the block's table, for the position the operation stands at. -/
theorem Activation.BlockAt.row {a : Activation} {s : State} {p : DriverPos} (h : a.BlockAt s) (hp : a.pos = p) :
    (a.goto p).BlockAt s := by
  subst hp
  exact h

/-- The host's turn where the driver's invariant holds: the running operation moves, returns, or holds in
`DELAY_SETTLE`. -/
theorem hostTurn_of_running {s : State} {a : Activation} (hf : s.faults = []) (ha : s.driver = some a)
    (hr : a.InRange) (hv : a.job.ValidBuffers) (hb : a.BlockAt s) :
    TurnMoves a s ∨ (a.pos = .ret ∧ hostTurn s = .next (returnCall a.returned s)) ∨ hostTurn s = hold s := by
  cases hp : a.pos with
  | ret => exact .inr (.inl ⟨rfl, hostTurn_ret ha hp⟩)
  | delaySettle =>
    cases hs : s.settled with
    | false => exact .inr (.inr (by simp [hostTurn, hostAction_of_driver ha, Activation.action, hp, hs]))
    | true =>
      exact .inl ⟨s, _, _, .delaySettle hp hs, standsAt_of_goto s _, hostTurn_delaySettle hf ha hp hs⟩
  | writePrescale =>
    obtain ⟨p, hj, -⟩ := hr.init_of_pos (.inl hp)
    obtain ⟨hin, ho⟩ := hb.row hp
    exact .inl ⟨_, _, _, .writePrescale p hj hp, standsAt_of_access _ _ _, hostTurn_writePrescale hf ha hj hp hin ho⟩
  | waitFree => exact .inl (turnMoves_of_status (hostTurn_waitFree hf ha hp) (.while_busy (.waitFree hp)))
  | sendData =>
    obtain ⟨hin, -⟩ := hb.row hp
    exact .inl ⟨_, _, _, .sendData hp, standsAt_of_access _ _ _, hostTurn_sendData hf ha hp hin⟩
  | sendStart =>
    obtain ⟨hin, ho, hd, hc⟩ := hb.row hp
    exact .inl ⟨_, _, _, .sendStart hp, standsAt_of_access _ _ _, hostTurn_sendStart hf ha hp hin hc hd ho⟩
  | sendWait => exact .inl (turnMoves_of_status (hostTurn_sendWait hf ha hp) (.until_done (.sendWait hp)))
  | sendClassify => exact .inl (turnMoves_of_status (hostTurn_sendClassify hf ha hp) (.afterSend hr hp))
  | fetchByte => exact .inl (turnMoves_of_fetchByte hf ha hp hr hv)
  | recvCommand =>
    obtain ⟨hc, hin, ho⟩ := hb.row hp
    exact .inl ⟨_, _, _, .recvCommand hp, standsAt_of_access _ _ _, hostTurn_recvCommand hf ha hp hin hc ho⟩
  | recvWait => exact .inl (turnMoves_of_status (hostTurn_recvWait hf ha hp) (.until_done (.recvWait hp)))
  | recvData =>
    obtain ⟨-, hin, hd, -⟩ := hb.row hp
    obtain ⟨b, hd⟩ := Option.isSome_iff_exists.1 hd
    exact .inl ⟨s, _, _, .recvData b hp, standsAt_of_read _ _ _ _, hostTurn_recvData hf ha hp hin hd⟩
  | storeByte => exact .inl (turnMoves_of_storeByte hf ha hp hr hv)
  | stopCommand =>
    obtain ⟨hc, hin⟩ := hb.row hp
    exact .inl ⟨_, _, _, .stopCommand hp, standsAt_of_access _ _ _, hostTurn_stopCommand hf ha hp hin hc⟩
  | stopWait => exact .inl (turnMoves_of_status (hostTurn_stopWait hf ha hp) (.until_done (.stopWait hp)))
  | stopFree => exact .inl (turnMoves_of_status (hostTurn_stopFree hf ha hp) (.while_busy (.afterStop hp)))
  | recordFound => exact .inl (turnMoves_of_recordFound hf ha hp hr hv)

end Sys2Proof.Machine
end

section
/-! PROOFS. A move of a running operation keeps the driver's invariant (R235): it stays at the positions of its job with
its variables in range, and leaves the block as its next position asks. -/

namespace Sys2Proof.Machine

/-- A move leaves the block as the next position asks (R213 to R224). -/
theorem Move.blockAt {a b : Activation} {s u : State} (h : Move a s u b) (hr : a.InRange) (hb : a.BlockAt s) :
    b.BlockAt u := by
  cases h with
  | writePrescale p hj hp =>
    obtain ⟨p', hj', hne⟩ := hr.init_of_pos (.inl hp)
    obtain rfl : p = p' := by simpa [hj] using hj'
    exact ⟨hb.row hp, rfl, hne⟩
  | delaySettle hp hs =>
    obtain ⟨hidle, hset, hdiv⟩ := hb.row hp
    obtain ⟨p, hj, -⟩ := hr.init_of_pos (.inr hp)
    exact ⟨⟨hset, hdiv, hs⟩, hidle, .inl ⟨p, hj⟩⟩
  | poll => exact hb
  | waitFree hp hfree =>
    obtain ⟨⟨hin, -⟩, hc⟩ := hb.row hp
    exact ⟨hin, .inr hfree, hc⟩
  | sendData hp =>
    obtain ⟨hin, ho, hc⟩ := hb.row hp
    exact ⟨hin, ho, rfl, hc⟩
  | sendStart hp =>
    obtain ⟨-, -, -, hc⟩ := hb.row hp
    obtain ⟨hown, hdone, -, -, hconf⟩ := sending_fields s
    exact ⟨hconf.2 hc, .inl ⟨by rw [sending_inflight]; rfl, hdone, hown⟩⟩
  | sendWait hp hd | recvWait hp hd =>
    obtain ⟨hc, ⟨-, hnot, -⟩ | hend⟩ := hb.row hp
    · simp [hd] at hnot
    · exact ⟨hc, hend⟩
  | sendMore _ _ _ _ hp _ hl | sendRead _ _ _ _ hp hl =>
    obtain ⟨hc, hin, ho⟩ := hb.row hp
    exact ⟨hc, hin, by simpa [hl] using ho⟩
  | sendDone _ hp | storeLast hp =>
    obtain ⟨hc, hin, -⟩ := hb.row hp
    exact ⟨hc, hin⟩
  | fetchByte _ hp =>
    obtain ⟨hc, hin, ho⟩ := hb.row hp
    exact ⟨hin, .inl ho, hc⟩
  | recvCommand hp =>
    obtain ⟨hc, -, ho⟩ := hb.row hp
    exact ⟨hc, .inl ⟨rfl, rfl, ho⟩⟩
  | recvData _ hp =>
    obtain ⟨hc, hin, -, ho⟩ := hb.row hp
    exact ⟨hc, hin, ho⟩
  | storeNext hp hl =>
    obtain ⟨hc, hin, ho⟩ := hb.row hp
    exact ⟨hc, hin, ho hl⟩
  | stopCommand hp =>
    obtain ⟨hc, -⟩ := hb.row hp
    exact ⟨hc, .inl ⟨rfl, rfl⟩⟩
  | stopWait hp hd =>
    obtain ⟨hc, ⟨-, hnot⟩ | hend⟩ := hb.row hp
    · simp [hd] at hnot
    · exact ⟨hc, hend⟩
  | stopped hp hfree =>
    obtain ⟨hc, hidle⟩ := hb.row hp
    exact ⟨hc, hidle, .inr hfree⟩
  | found _ _ _ hp hfree =>
    obtain ⟨hc, hidle⟩ := hb.row hp
    exact ⟨hc, hidle, hfree⟩
  | probe _ _ _ hp =>
    obtain ⟨hc, hidle⟩ := hb.row hp
    exact ⟨hidle, hc⟩
  | recordLast hp =>
    obtain ⟨hc, hidle, hfree⟩ := hb.row hp
    exact ⟨hc, hidle, .inr hfree⟩
  | recordNext hp =>
    obtain ⟨hc, hidle, -⟩ := hb.row hp
    exact ⟨hidle, hc⟩

/-! The positions of each job. Each proof names the moves of its job; the others start where the job does not stand. -/

/-- The next candidate of a `scan` that has not probed the last one (R224). -/
theorem candidate_succ {c : DeviceAddr} (hc : c ≠ Config.scanLast) (hle : c.toNat ≤ 119) :
    (c + 1#7).toNat = c.toNat + 1 ∧ c.toNat + 1 ≤ 119 := by
  have hne : c.toNat ≠ 119 := fun h => hc (BitVec.eq_of_toNat_eq h)
  rw [BitVec.toNat_add]
  simp only [BitVec.toNat_ofNat]
  omega

section
variable {a b : Activation} {s u : State} (h : Move a s u b) (hr : a.InRange)
include h hr

theorem Move.inRange_of_init {p : Word} (hj : a.job = .init p) : b.InRange := by
  have hjb : b.job = .init p := h.job.trans hj
  simp only [Activation.InRange, hj, hjb] at hr ⊢
  obtain ⟨hne, hpos⟩ := hr
  refine ⟨hne, ?_⟩
  cases h with
  | writePrescale => exact .inr (.inl rfl)
  | delaySettle => exact .inr (.inr rfl)
  | poll => exact hpos
  | _ => simp_all

theorem Move.inRange_of_write {addr : DeviceAddr} {data len : Word} (hj : a.job = .write addr data len) :
    b.InRange := by
  have hjb : b.job = .write addr data len := h.job.trans hj
  simp only [Activation.InRange, hj, hjb] at hr ⊢
  cases h with
  | poll => exact hr
  | sendMore _ _ _ _ _ hl => exact .inr ⟨rfl, by rwa [hj] at hl⟩
  | writePrescale | sendRead | recvCommand | recvWait | recvData | storeNext | found =>
    simp_all [DriverPos.isTransfer]
  | _ => exact .inl rfl

theorem Move.inRange_of_read {addr : DeviceAddr} {buffer len : Word} (hj : a.job = .read addr buffer len) :
    b.InRange := by
  have hjb : b.job = .read addr buffer len := h.job.trans hj
  have hzero := hr.read_index_eq_zero hj
  have hlt := hr.read_index_lt hj
  simp only [Activation.InRange, hj, hjb] at hr hlt ⊢
  obtain ⟨hlen, hpos⟩ := hr
  refine ⟨hlen, ?_⟩
  cases h with
  | poll => exact hpos
  | waitFree hp | sendData hp | sendStart hp | sendWait hp => exact .inl ⟨rfl, fun _ => hzero (by rw [hp]; rfl)⟩
  | sendRead _ _ _ _ hp =>
    have hindex := hzero (by rw [hp]; rfl)
    exact .inr ⟨rfl, hindex ▸ hlen⟩
  | recvCommand hp | recvWait hp | recvData _ hp => exact .inr ⟨rfl, hlt (by rw [hp]; rfl)⟩
  | storeNext _ hl => exact .inr ⟨rfl, by rwa [hj] at hl⟩
  | sendDone | storeLast | stopCommand | stopWait | stopped | recordLast => exact .inl ⟨rfl, nofun⟩
  | _ => simp_all [DriverPos.isTransfer, DriverPos.isReceive]

theorem Move.inRange_of_scan {found maxFound : Word} (hj : a.job = .scan found maxFound) : b.InRange := by
  have hjb : b.job = .scan found maxFound := h.job.trans hj
  have hbounds := hr.scan_bounds hj
  simp only [Activation.InRange, hj, hjb] at hr ⊢
  obtain ⟨hpos, hcount, hmax, hrun⟩ := hr
  cases h with
  | poll => exact ⟨hpos, hcount, hmax, hrun⟩
  | waitFree hp | sendData hp | sendStart hp | sendWait hp | sendDone _ hp | stopCommand hp | stopWait hp =>
    exact ⟨.inl rfl, hcount, hmax, fun _ => hrun (by simp [hp])⟩
  | stopped => exact ⟨.inl rfl, hcount, hmax, absurd rfl⟩
  | found _ _ _ hp => exact ⟨.inr rfl, hcount, hmax, fun _ => hrun (by simp [hp])⟩
  | probe _ _ _ hp hc =>
    obtain ⟨hroom, hlow, hhigh, hahead⟩ := hbounds (by simp [hp])
    obtain ⟨hsucc, hlast⟩ := candidate_succ hc hhigh
    dsimp only
    exact ⟨.inl rfl, hcount, hmax, fun _ => ⟨hroom, by omega, by omega, by omega⟩⟩
  | recordLast hp =>
    obtain ⟨hroom, hlow, hhigh, hahead⟩ := hbounds (by simp [hp])
    dsimp only
    exact ⟨.inl rfl, hroom, by omega, absurd rfl⟩
  | recordNext hp hl hc =>
    obtain ⟨hroom, hlow, hhigh, hahead⟩ := hbounds (by simp [hp])
    obtain ⟨hsucc, hlast⟩ := candidate_succ hc hhigh
    have hmore : a.count + 1 < lengthOf maxFound := by
      rw [hj] at hl
      exact Nat.lt_of_le_of_ne hroom hl
    dsimp only
    exact ⟨.inl rfl, hroom, by omega, fun _ => ⟨hmore, by omega, by omega, by omega⟩⟩
  | _ => simp_all [DriverPos.isTransfer]

/-- A move stays at the positions of the job, with its variables in range (R219 to R224). -/
theorem Move.inRange : b.InRange := by
  cases hj : a.job with
  | init => exact h.inRange_of_init hr hj
  | write => exact h.inRange_of_write hr hj
  | read => exact h.inRange_of_read hr hj
  | scan => exact h.inRange_of_scan hr hj

end

end Sys2Proof.Machine
end

section
/-! PROOFS. The controller beside a running operation (R180 to R188): what its steps leave of the block's table. -/

namespace Sys2Proof.Machine

theorem Activation.BlockAt.of_row {a : Activation} {s : State} {p : DriverPos} (hp : a.pos = p)
    (h : (a.goto p).BlockAt s) : a.BlockAt s := by
  subst hp
  exact h

/-- `t` is as the driver left `s`, but that BUSY may have fallen and the settle time elapsed (R186, R188). -/
structure Relaxes (s t : State) : Prop where
  inflight : t.inflight = s.inflight
  own : t.own = s.own
  done : t.done = s.done
  arbLost : t.arbLost = s.arbLost
  data : t.data = s.data
  prescale : t.prescale = s.prescale
  prescaleSet : t.prescaleSet = s.prescaleSet
  history : t.history = s.history
  faults : t.faults = s.faults
  busy : s.busy = false → t.busy = false
  settled : s.settled = true → t.settled = true

theorem SameBlock.relaxes {s t : State} (h : SameBlock s t) : Relaxes s t where
  inflight := h.inflight
  own := h.own
  done := h.done
  arbLost := h.arbLost
  data := h.data
  prescale := h.prescale
  prescaleSet := h.prescaleSet
  history := h.history
  faults := h.faults
  busy := h.busy.trans
  settled := h.settled.trans

section
variable {s t : State} (h : Relaxes s t)
include h

theorem Relaxes.configured (hc : Configured s) : Configured t := by
  obtain ⟨hset, hdiv, hsettled⟩ := hc
  exact ⟨h.prescaleSet.trans hset, fun h0 => hdiv (h.prescale.symm.trans h0), h.settled hsettled⟩

theorem Relaxes.unengaged (hu : Unengaged s) : Unengaged t := by
  obtain ⟨hin, ho⟩ := hu
  exact ⟨h.inflight.trans hin, h.own.trans ho⟩

/-- No row of the block's table asks for BUSY or for an unsettled block. -/
theorem Relaxes.blockAt {a : Activation} (hb : a.BlockAt s) : a.BlockAt t := by
  have hu : Unengaged t ↔ Unengaged s := by simp only [Unengaged, h.inflight, h.own]
  simp only [Activation.BlockAt, h.inflight, h.own, h.done, h.arbLost, h.data, h.prescale, h.prescaleSet, hu] at hb ⊢
  cases hp : a.pos <;> simp only [hp] at hb ⊢
  case writePrescale | delaySettle => exact hb
  case waitFree => exact hb.imp_right h.configured
  case sendData => exact hb.imp_right (.imp (.imp_right h.busy) h.configured)
  case sendStart => exact hb.imp_right (.imp (.imp_right h.busy) (.imp_right h.configured))
  case recordFound => exact hb.imp h.configured (.imp_right h.busy)
  case ret => exact hb.imp h.configured (.imp_right (.imp_right h.busy))
  all_goals exact hb.imp_left h.configured

end

/-- A step of the controller is a completion of the command in flight, or leaves what the driver did. -/
theorem controllerStep_relaxes {h : Bool} {k : ControllerStep} {s : State} (he : enabled h k s = true) :
    Relaxes s (controllerStep k s) ∨ ∃ c, s.inflight = some c ∧ k = c.completion := by
  obtain ⟨c, rfl⟩ | rfl | rfl | rfl := controllerStep_kinds k
  · obtain ⟨-, ⟨c', hin, hc⟩, -⟩ := enabled_completion.1 he
    exact .inr ⟨c', hin, hc.symm⟩
  · exact .inl ⟨rfl, rfl, rfl, rfl, rfl, rfl, rfl, rfl, rfl, fun _ => rfl, id⟩
  · exact .inl ⟨rfl, rfl, rfl, rfl, rfl, rfl, rfl, rfl, rfl, id, id⟩
  · exact .inl ⟨rfl, rfl, rfl, rfl, rfl, rfl, rfl, rfl, rfl, id, fun _ => rfl⟩

/-! Completions. -/

theorem Completes.configured {s t : State} (h : Completes s t) (hc : Configured s) : Configured t := by
  simpa only [Configured, h.prescale, h.prescaleSet, h.settled] using hc

/-- Sending a byte ends with the bus held or the arbitration lost (R183). -/
theorem completeWrByte_own (b : Byte) (o : TxOutcome) (s : State) :
    (completeWrByte b o s).own = s.own ∨ (completeWrByte b o s).arbLost = true := by
  cases o <;> simp [completeWrByte]

theorem completeWrByte_history (b : Byte) (o : TxOutcome) (s : State) :
    (completeWrByte b o s).history = s.history ++ [.tx b o] := by
  cases o <;> rfl

/-- Receiving a byte leaves one in DATA (R184). -/
theorem completeRdByte_data (k : Bool) (a : RxAnswer) (junk : Byte) (draw : Bool) (s : State) :
    (completeRdByte k a junk draw s).data.isSome = true := by
  cases a <;> rfl

/-- Receiving a byte records the acknowledge bit asked for, and loses the bus only to a lost arbitration (R184). -/
theorem completeRdByte_history (k : Bool) (a : RxAnswer) (junk : Byte) (draw : Bool) (s : State) :
    ∃ b r, (completeRdByte k a junk draw s).history = s.history ++ [.rx b k r] ∧
      ((completeRdByte k a junk draw s).own = s.own ∨ (b = none ∧ r = .arb)) := by
  cases a
  · exact ⟨_, _, rfl, .inl rfl⟩
  · exact ⟨_, _, rfl, .inl rfl⟩
  · exact ⟨_, _, rfl, .inr ⟨rfl, rfl⟩⟩

theorem masterAck_of_rdByte {k : Bool} {s : State} (h : s.inflight = some (.rdByte k)) : masterAck s = k := by
  cases k <;> simp [masterAck, h]

/-- A STOP leaves the bus not held (R185). -/
theorem controllerStep_completeStop_own (s : State) : (controllerStep .completeStop s).own = false := by
  cases ho : s.own
  · rw [controllerStep, if_neg (by simp [ho]), completeStop_of_not_own _ ho]
    exact ho
  · rw [controllerStep, if_pos ho, completeStop_of_own _ ho]
    rfl

/-! The one position that a command in flight belongs to. -/

section
variable {a : Activation} {s : State} (hb : a.BlockAt s)
include hb

theorem Activation.BlockAt.sendWait_of_wrByte {sc : Bool} (hin : s.inflight = some (.wrByte sc)) :
    a.pos = .sendWait := by
  cases hp : a.pos <;> simp [Activation.BlockAt, Unengaged, hp, hin] at hb ⊢

theorem Activation.BlockAt.recvWait_of_rdByte {k : Bool} (hin : s.inflight = some (.rdByte k)) :
    a.pos = .recvWait ∧ k = (a.index + 1 != a.job.length) ∧ s.own = true := by
  cases hp : a.pos <;> simp [Activation.BlockAt, Unengaged, hp, hin, Cmd.isWrByte] at hb ⊢
  obtain ⟨-, hk, -, ho⟩ := hb
  exact ⟨hk, ho⟩

theorem Activation.BlockAt.stopWait_of_stop (hin : s.inflight = some .stop) : a.pos = .stopWait := by
  cases hp : a.pos <;> simp [Activation.BlockAt, Unengaged, hp, hin, Cmd.isWrByte] at hb ⊢

/-- A command in flight finds the block configured. -/
theorem Activation.BlockAt.configured_of_inflight {c : Cmd} (hin : s.inflight = some c) : Configured s := by
  cases hp : a.pos <;> simp [Activation.BlockAt, Unengaged, hp, hin] at hb <;> exact hb.1

/-- The completion of a command leaves the block as the wait for DONE asks, whatever the bus answers but for premise 4
of R235. -/
theorem Activation.BlockAt.completion {c : Cmd} (hin : s.inflight = some c)
    (hna : NoEarlyArb (controllerStep c.completion s)) : a.BlockAt (controllerStep c.completion s) := by
  have hdone := completes_completion c s
  have hc := hdone.configured (hb.configured_of_inflight hin)
  cases c with
  | wrByte sc =>
    have hp := hb.sendWait_of_wrByte hin
    have hown : s.own = true := by
      obtain ⟨-, ⟨-, -, ho⟩ | ⟨hnone, -⟩⟩ := hb.row hp
      · exact ho
      · simp [hin] at hnone
    exact .of_row hp ⟨hc, .inr ⟨hdone.inflight, (completeWrByte_own _ _ s).imp_left (·.trans hown)⟩⟩
  | rdByte k =>
    obtain ⟨hp, hk, hown⟩ := hb.recvWait_of_rdByte hin
    refine .of_row hp ⟨hc, .inr ⟨hdone.inflight, completeRdByte_data _ _ _ _ s, fun hl => ?_⟩⟩
    obtain ⟨b, r, hhist, ho | ⟨rfl, rfl⟩⟩ := completeRdByte_history (masterAck s)
      (Config.busRx s.history (masterAck s) s.draws) (Config.anyByte s.draws) (Config.anyBool s.draws) s
    · exact ho.trans hown
    · have hlost : BusEvent.rx none true .arb ∈ (controllerStep .completeRdByte s).history := by
        have htrue : masterAck s = true := by
          rw [masterAck_of_rdByte hin, hk]
          exact bne_iff_ne.2 (Nat.ne_of_lt hl)
        have hmem : BusEvent.rx none (masterAck s) .arb ∈ (controllerStep .completeRdByte s).history :=
          hhist ▸ List.mem_append_right _ (List.mem_singleton.2 rfl)
        rwa [htrue] at hmem
      exact absurd hlost hna
  | stop =>
    have hp := hb.stopWait_of_stop hin
    exact .of_row hp ⟨hc, .inr ⟨hdone.inflight, controllerStep_completeStop_own s⟩⟩

end

end Sys2Proof.Machine
end

section
/-! PROOFS. Entering a call within R235: the operation stands at its first position, with its variables in range. -/

namespace Sys2Proof.Machine

theorem lengthOf_pos {buffer len : Word} (h : badArgument buffer len = false) : 0 < lengthOf len := by
  have hgood : ¬(buffer = 0#32 ∨ len.toInt ≤ 0) := fun hbad => by simp [badArgument_iff.2 hbad] at h
  rw [lengthOf]
  omega

theorem of_enterWrite {addr : DeviceAddr} {data len : Word} {a : Activation} (h : enterWrite addr data len = .inr a) :
    badArgument data len = false ∧ a = .start (.write addr data len) .waitFree := by
  unfold enterWrite at h
  split at h
  · cases h
  · exact ⟨by simpa using ‹¬badArgument data len = true›, (Sum.inr.inj h).symm⟩

theorem of_enterRead {addr : DeviceAddr} {buffer len : Word} {a : Activation} (h : enterRead addr buffer len = .inr a) :
    badArgument buffer len = false ∧ a = .start (.read addr buffer len) .waitFree := by
  unfold enterRead at h
  split at h
  · cases h
  · exact ⟨by simpa using ‹¬badArgument buffer len = true›, (Sum.inr.inj h).symm⟩

theorem inRange_start_write (addr : DeviceAddr) (data len : Word) :
    (Activation.start (.write addr data len) .waitFree).InRange := .inl rfl

theorem inRange_start_read (addr : DeviceAddr) {buffer len : Word} (h : 0 < lengthOf len) :
    (Activation.start (.read addr buffer len) .waitFree).InRange := ⟨h, .inl ⟨rfl, fun _ => rfl⟩⟩

theorem inRange_start_scan (found : Word) {maxFound : Word} (h : 0 < lengthOf maxFound) :
    (Activation.start (.scan found maxFound) .waitFree).InRange :=
  have hfirst : 8 ≤ Config.scanFirst.toNat ∧ Config.scanFirst.toNat ≤ 119 ∧ 0 + 8 ≤ Config.scanFirst.toNat := by decide
  ⟨.inl rfl, Nat.zero_le _, Nat.zero_le _, fun _ => ⟨h, hfirst⟩⟩

/-- A valid call that does not return at once enters its operation: `init` at its PRESCALE write, the transfers at
their first wait (R219 to R224). -/
theorem Call.Valid.entered {c : Call} {w : Word} {a : Activation} (hv : c.Valid)
    (h : c.enter (byteAddress w) = .inr a) :
    a.InRange ∧ a.job.ValidBuffers ∧ a.count = 0 ∧
      (a.pos = .writePrescale ∨ (a.pos = .waitFree ∧ ∀ p, c ≠ .init p)) := by
  cases c with
  | init p =>
    obtain rfl := Sum.inr.inj h
    exact ⟨⟨hv, .inl rfl⟩, trivial, rfl, .inl rfl⟩
  | write addr data len =>
    obtain ⟨hgood, rfl⟩ := of_enterWrite h
    exact ⟨inRange_start_write addr data len, hv hgood, rfl, .inr ⟨rfl, nofun⟩⟩
  | read addr buffer len =>
    obtain ⟨hgood, rfl⟩ := of_enterRead h
    exact ⟨inRange_start_read addr (lengthOf_pos hgood), hv hgood, rfl, .inr ⟨rfl, nofun⟩⟩
  | writeByte addr byte =>
    obtain ⟨-, rfl⟩ := of_enterWrite h
    exact ⟨inRange_start_write addr _ _, (byteAddress_ram w).2, rfl, .inr ⟨rfl, nofun⟩⟩
  | readByte addr p =>
    obtain ⟨hgood, rfl⟩ := of_enterRead h
    exact ⟨inRange_start_read addr (lengthOf_pos hgood), hv hgood, rfl, .inr ⟨rfl, nofun⟩⟩
  | scan found maxFound =>
    simp only [Call.enter] at h
    split at h
    · cases h
    · have hgood : badArgument found maxFound = false := by simpa using ‹¬badArgument found maxFound = true›
      obtain rfl := Sum.inr.inj h
      exact ⟨inRange_start_scan found (lengthOf_pos hgood), hv hgood, rfl, .inr ⟨rfl, nofun⟩⟩

theorem beginCall_program (c : Call) (s : State) : (beginCall c s).program = s.program.tail := by
  have hplace (slot : Word) : (c.placeArgument slot s).program = s.program := by
    obtain ⟨hprogram, -⟩ := placeArgument_host slot c s
    exact hprogram
  unfold beginCall
  dsimp only
  split <;> exact congrArg List.tail (hplace _)

/-- A call returns at once, or its operation runs. -/
theorem beginCall_driver (c : Call) (s : State) :
    ∃ w, ((∃ r, c.enter (byteAddress w) = .inl r) ∧ (beginCall c s).driver = s.driver) ∨
      ∃ a, c.enter (byteAddress w) = .inr a ∧ (beginCall c s).driver = some a := by
  refine ⟨Config.anyAddress s.draws, ?_⟩
  have hplace (slot : Word) : (c.placeArgument slot s).driver = s.driver := by
    obtain ⟨-, hdriver, -⟩ := placeArgument_host slot c s
    exact hdriver
  unfold beginCall
  dsimp only
  split
  · exact .inl ⟨⟨_, by assumption⟩, hplace _⟩
  · exact .inr ⟨_, by assumption, rfl⟩

end Sys2Proof.Machine
end

section
/-! PROOFS. The step of a machine that runs within R235, said once, and with it the driver's invariant (R229, R235). -/

namespace Sys2Proof.Machine

/-- Everything a step can do where the driver's invariant holds. -/
inductive DriverStep (s : State) : State → Prop where
  | hold (t : State) (h : StandsAt s s.driver t) : DriverStep s t
  | controller (k : ControllerStep) (t : State) (he : enabled Config.hwFaultHang k s = true)
      (h : StandsAt (controllerStep k s) s.driver t) : DriverStep s t
  | move (a b : Activation) (u t : State) (ha : s.driver = some a) (hm : Move a s u b) (h : StandsAt u (some b) t) :
      DriverStep s t
  | ret (a : Activation) (ha : s.driver = some a) (hp : a.pos = .ret) : DriverStep s (returnCall a.returned s).choose
  | begin (c : Call) (rest : List HostOp) (hd : s.driver = none) (hprog : s.program = .call c :: rest) :
      DriverStep s (beginCall c s).choose

/-- The step answers one of these, or no agent has a step left (R11). -/
def DriverSteps (s : State) : Prop :=
  (∃ t, step s = .next t ∧ DriverStep s t) ∨ (step s = .fault .stuck ∧ anyEnabled s = false)

theorem driverSteps_of_hold {s : State} (hf : s.faults = []) (h : agentTurn s.turn s = hold s) : DriverSteps s := by
  cases hany : anyEnabled s with
  | true =>
    have hturn := h.trans (hold_of_anyEnabled hany)
    exact .inl ⟨_, step_of_turn hf hturn, .hold _ ⟨sameBlock_chooseBy _ s, rfl, rfl, rfl⟩⟩
  | false => exact .inr ⟨stepBy_of_turn_fault _ hf (h.trans (hold_of_not_anyEnabled hany)), hany⟩

theorem driverSteps_of_enabled {k : ControllerStep} {s : State} (ht : s.turn = .controller k)
    (he : enabled Config.hwFaultHang k s = true) : DriverSteps s := by
  obtain ⟨⟨-, hdriver, -⟩, -⟩ := sameSurroundings_controllerStep k s
  exact .inl ⟨_, step_of_enabled ht he, .controller k _ he ⟨sameBlock_chooseBy _ _, rfl, rfl, hdriver⟩⟩

theorem driverSteps_of_running {s : State} {a : Activation} (hi : DriverInvariant s) (ht : s.turn = .host)
    (ha : s.driver = some a) : DriverSteps s := by
  have hf := hi.no_fault
  obtain ⟨hr, hv, hb⟩ := hi.running a ha
  obtain ⟨u, b, t, hm, hst, hturn⟩ | ⟨hp, hturn⟩ | hhold := hostTurn_of_running hf ha hr hv hb
  · exact .inl ⟨_, step_of_hostTurn hf ht hturn, .move a b u _ ha hm hst.choose⟩
  · exact .inl ⟨_, step_of_hostTurn hf ht hturn, .ret a ha hp⟩
  · exact driverSteps_of_hold hf (by rwa [ht])

theorem driverSteps_of_program {s : State} (hi : DriverInvariant s) (ht : s.turn = .host) (hd : s.driver = none) :
    DriverSteps s := by
  have hf := hi.no_fault
  cases hprog : s.program with
  | nil => exact driverSteps_of_hold hf (by simp [ht, agentTurn, hostTurn, hostAction, hd, hprog])
  | cons op rest =>
    obtain ⟨c, rfl, -⟩ := hi.program_valid op (by simp [hprog])
    exact .inl ⟨_, step_of_call hf ht hd hprog, .begin c rest hd hprog⟩

/-- The inversion of the step where the driver's invariant holds. -/
theorem DriverInvariant.steps {s : State} (hi : DriverInvariant s) : DriverSteps s := by
  cases ht : s.turn with
  | host =>
    cases hd : s.driver with
    | none => exact driverSteps_of_program hi ht hd
    | some a => exact driverSteps_of_running hi ht hd
  | controller k =>
    cases he : enabled Config.hwFaultHang k s with
    | true => exact driverSteps_of_enabled ht he
    | false => exact driverSteps_of_hold hi.no_fault (by rw [ht]; exact controllerTurn_eq_hold he)

theorem DriverInvariant.step_cases {s t : State} (hi : DriverInvariant s) (h : step s = .next t) : DriverStep s t := by
  obtain ⟨t', h', hs⟩ | ⟨hstuck, -⟩ := hi.steps
  · obtain rfl : t' = t := Host.Outcome.next.inj (h'.symm.trans h)
    exact hs
  · cases hstuck.symm.trans h

/-- No step within R235 records a fault. -/
theorem DriverStep.faults {s t : State} (h : DriverStep s t) : t.faults = s.faults := by
  cases h with
  | hold _ h => exact h.block.faults
  | controller k _ he h =>
    obtain ⟨-, hf⟩ := (controllerStep_effect he).history
    exact h.block.faults.trans hf
  | move a b u _ _ hm h =>
    obtain ⟨hf, -⟩ := hm.frame
    exact h.block.faults.trans hf
  | ret => rfl
  | begin c => exact (sameBlock_beginCall c s).faults

/-- Settles O55: each of these steps leaves the recorded faults, which are none. -/
theorem driverNeverFaults : Obligations.DriverNeverFaults := by
  intro s hi
  exact hi.steps.imp_left fun ⟨t, h, hs⟩ => ⟨t, h, hs.faults.trans hi.no_fault⟩

/-- Settles O56: the return leaves the block as the invariant has it at the position before. -/
theorem transfersReturnWithTheBusFree : Obligations.TransfersReturnWithTheBusFree := by
  intro s a hi ht ha hp
  obtain ⟨-, -, hb⟩ := hi.running a ha
  obtain ⟨-, ⟨hin, ho⟩, hfree⟩ := hb.row hp
  refine ⟨_, step_of_hostTurn hi.no_fault ht (hostTurn_ret ha hp), rfl, ho, hin, fun hno => ?_, rfl⟩
  exact hfree.resolve_left fun ⟨p, hj⟩ => hno p hj

/-! The invariant, assembled. -/

theorem ProgramValid.of_program {s t : State} (h : ProgramValid s) (hp : t.program = s.program) : ProgramValid t := by
  unfold ProgramValid
  rwa [hp]

theorem InitFirst.of_program {s t : State} (h : InitFirst s) (hp : t.program = s.program) : InitFirst t := by
  unfold InitFirst
  rwa [hp]

theorem DriverInvariant.of_running {t : State} {a : Activation} (hf : t.faults = []) (hprog : ProgramValid t)
    (ha : t.driver = some a) (h : a.InRange ∧ a.job.ValidBuffers ∧ a.BlockAt t) : DriverInvariant t where
  no_fault := hf
  program_valid := hprog
  running a' ha' := by
    obtain rfl : a = a' := Option.some.inj (ha.symm.trans ha')
    exact h
  between hd := by simp [hd] at ha

theorem DriverInvariant.of_between {t : State} (hf : t.faults = []) (hprog : ProgramValid t) (hd : t.driver = none)
    (h : Unengaged t ∧ (Configured t ∨ InitFirst t)) : DriverInvariant t where
  no_fault := hf
  program_valid := hprog
  running a ha := by simp [hd] at ha
  between _ := h

theorem DriverInvariant.of_relaxes {s t : State} (hi : DriverInvariant s) (h : Relaxes s t)
    (hp : t.program = s.program) (hd : t.driver = s.driver) : DriverInvariant t where
  no_fault := h.faults.trans hi.no_fault
  program_valid := hi.program_valid.of_program hp
  running a ha := by
    obtain ⟨hr, hv, hb⟩ := hi.running a (hd.symm.trans ha)
    exact ⟨hr, hv, h.blockAt hb⟩
  between hnone := by
    obtain ⟨hu, hc⟩ := hi.between (hd.symm.trans hnone)
    exact ⟨h.unengaged hu, hc.imp h.configured (·.of_program hp)⟩

theorem Move.invariant {a b : Activation} {s u t : State} (hi : DriverInvariant s) (ha : s.driver = some a)
    (hm : Move a s u b) (h : StandsAt u (some b) t) : DriverInvariant t := by
  obtain ⟨hr, hv, hb⟩ := hi.running a ha
  obtain ⟨hfaults, hprogram⟩ := hm.frame
  refine .of_running (h.block.faults.trans (hfaults.trans hi.no_fault))
    (hi.program_valid.of_program (h.program.trans hprogram)) h.driver ⟨hm.inRange hr, ?_, ?_⟩
  · rwa [hm.job]
  · exact h.block.relaxes.blockAt (hm.blockAt hr hb)

/-- Between operations no command is in flight, so that a completion finds an operation running. -/
theorem DriverInvariant.exists_running {s : State} (hi : DriverInvariant s) {c : Cmd} (hin : s.inflight = some c) :
    ∃ a, s.driver = some a := by
  cases hd : s.driver with
  | some a => exact ⟨a, rfl⟩
  | none =>
    obtain ⟨⟨hnone, -⟩, -⟩ := hi.between hd
    simp [hin] at hnone

/-- Every step of the controller keeps the driver's invariant, under premise 4 of R235. -/
theorem DriverInvariant.controllerStep {k : ControllerStep} {s : State} (hi : DriverInvariant s)
    (he : enabled Config.hwFaultHang k s = true) (hna : NoEarlyArb (controllerStep k s)) :
    DriverInvariant (controllerStep k s) := by
  obtain ⟨⟨hprogram, hdriver, -⟩, -⟩ := sameSurroundings_controllerStep k s
  obtain h | ⟨c, hin, rfl⟩ := controllerStep_relaxes he
  · exact hi.of_relaxes h hprogram hdriver
  · obtain ⟨a, ha⟩ := hi.exists_running hin
    obtain ⟨hr, hv, hb⟩ := hi.running a ha
    exact .of_running ((completes_completion c s).faults.trans hi.no_fault) (hi.program_valid.of_program hprogram)
      (hdriver.trans ha) ⟨hr, hv, hb.completion hin hna⟩

theorem DriverInvariant.valid_of_call {s : State} {c : Call} {rest : List HostOp} (hi : DriverInvariant s)
    (hprog : s.program = .call c :: rest) : c.Valid := by
  obtain ⟨c', he, hv⟩ := hi.program_valid (.call c) (by simp [hprog])
  rwa [HostOp.call.inj he]

/-- The operation a call within R235 has just entered. -/
theorem DriverInvariant.entered {s : State} {c : Call} {rest : List HostOp} {a : Activation} (hi : DriverInvariant s)
    (hd : s.driver = none) (hprog : s.program = .call c :: rest) (ha : (Machine.beginCall c s).driver = some a) :
    a.count = 0 ∧ (a.pos = .writePrescale ∨ a.pos = .waitFree) := by
  obtain ⟨w, ⟨-, hnone⟩ | ⟨a', henter, hsome⟩⟩ := beginCall_driver c s
  · rw [hnone, hd] at ha
    cases ha
  · obtain rfl : a' = a := Option.some.inj (hsome.symm.trans ha)
    obtain ⟨-, -, hcount, hpos⟩ := (hi.valid_of_call hprog).entered henter
    exact ⟨hcount, hpos.imp_right And.left⟩

/-- Entering a valid call keeps the driver's invariant: `init` comes first on a block that is not configured. -/
theorem DriverInvariant.beginCall {s : State} {c : Call} {rest : List HostOp} (hi : DriverInvariant s)
    (hd : s.driver = none) (hprog : s.program = .call c :: rest) : DriverInvariant (beginCall c s) := by
  obtain ⟨hu, hc⟩ := hi.between hd
  have hrelax := (sameBlock_beginCall c s).relaxes
  have hf := hrelax.faults.trans hi.no_fault
  have hrest : ProgramValid (Machine.beginCall c s) := by
    intro op hop
    rw [beginCall_program] at hop
    exact hi.program_valid op (List.mem_of_mem_tail hop)
  have hconf (hno : ∀ p, c ≠ .init p) : Configured s := by
    refine hc.resolve_right fun hfirst => ?_
    obtain hnil | ⟨p, rest', hcons⟩ := hfirst
    · simp [hprog] at hnil
    · rw [hprog] at hcons
      exact hno p (HostOp.call.inj (List.cons.inj hcons).1)
  obtain ⟨w, ⟨⟨r, hret⟩, hdriver⟩ | ⟨a, henter, hdriver⟩⟩ := beginCall_driver c s
  · have hno (p : Word) : c ≠ .init p := by
      rintro rfl
      cases hret
    exact .of_between hf hrest (hdriver.trans hd) ⟨hrelax.unengaged hu, .inl (hrelax.configured (hconf hno))⟩
  · obtain ⟨hr, hv, -, hpos⟩ := (hi.valid_of_call hprog).entered henter
    refine .of_running hf hrest hdriver ⟨hr, hv, hrelax.blockAt ?_⟩
    obtain hp | ⟨hp, hno⟩ := hpos
    · exact .of_row hp hu
    · exact .of_row hp ⟨hu, hconf hno⟩

/-- Settles O54: each of the steps within R235 keeps the invariant. -/
theorem driverInvariantIsKept : Obligations.DriverInvariantIsKept := by
  intro s t hi h hna
  cases hi.step_cases h with
  | hold _ hs => exact hi.of_relaxes hs.block.relaxes hs.program hs.driver
  | controller k _ he hs =>
    have hna' : NoEarlyArb (controllerStep k s) := by
      unfold NoEarlyArb
      rwa [← hs.block.history]
    obtain ⟨⟨-, hdriver, -⟩, -⟩ := sameSurroundings_controllerStep k s
    exact (hi.controllerStep he hna').of_relaxes hs.block.relaxes hs.program (hs.driver.trans hdriver.symm)
  | move a b u _ ha hm hs => exact hm.invariant hi ha hs
  | ret a ha hp =>
    obtain ⟨-, -, hb⟩ := hi.running a ha
    obtain ⟨hc, hu, -⟩ := hb.row hp
    exact .of_between hi.no_fault hi.program_valid rfl ⟨hu, .inl hc⟩
  | begin c rest hd hprog =>
    exact (hi.beginCall hd hprog).of_relaxes (sameBlock_chooseBy _ _).relaxes rfl rfl

end Sys2Proof.Machine
end

section
/-! PROOFS. What a `read` receives (R221, R230): every step keeps the record of the acknowledge bits. -/

namespace Sys2Proof.Machine

/-! The acknowledge bits at the end of a history, and those a `read` asks for. -/

theorem trailingAcks_append_rx (h : List BusEvent) (b : Option Byte) (k : Bool) (r : RxOutcome) :
    trailingAcks (h ++ [.rx b k r]) = trailingAcks h ++ [k] := by
  simp [trailingAcks]

theorem trailingAcks_append_tx (h : List BusEvent) (b : Byte) (o : TxOutcome) : trailingAcks (h ++ [.tx b o]) = [] := by
  simp [trailingAcks]

theorem take_acksOfRead {i n : Nat} (h : i ≤ n) :
    (acksOfRead n).take i = (List.range i).map fun j => j + 1 != n := by
  rw [acksOfRead, ← List.map_take, List.take_range, Nat.min_eq_left h]

/-- Byte `i` of a `read` asks for the acknowledge unless it is the last (R230). -/
theorem take_succ_acksOfRead {i n : Nat} (h : i < n) :
    (acksOfRead n).take (i + 1) = (acksOfRead n).take i ++ [i + 1 != n] := by
  rw [take_acksOfRead h, take_acksOfRead (Nat.le_of_lt h), List.range_succ, List.map_append, List.map_singleton]

theorem acksOfRead_length (n : Nat) : (acksOfRead n).length = n := by
  simp [acksOfRead]

/-- All but the last byte of a `read` are acknowledged (R230). -/
theorem acksOfRead_eq_replicate {n : Nat} (h : 0 < n) : acksOfRead n = List.replicate (n - 1) true ++ [false] := by
  obtain ⟨m, rfl⟩ := Nat.exists_eq_succ_of_ne_zero (Nat.ne_of_gt h)
  have hbefore : (acksOfRead (m + 1)).take m = List.replicate m true := by
    rw [take_acksOfRead (Nat.le_succ m), List.eq_replicate_iff]
    refine ⟨by simp, fun b hb => ?_⟩
    obtain ⟨j, hj, rfl⟩ := List.mem_map.1 hb
    have hlt : j < m := List.mem_range.1 hj
    exact bne_iff_ne.2 (by omega)
  have hall := take_succ_acksOfRead (Nat.lt_succ_self m)
  rw [List.take_of_length_le (Nat.le_of_eq (acksOfRead_length _)), hbefore, bne_self_eq_false] at hall
  exact hall

/-! The rows of the record. -/

section
variable {a : Activation} {s : State}

/-- Only a `read` has a record to keep. -/
theorem Activation.acksAt_of_read (h : ∀ addr buffer len, a.job = .read addr buffer len → a.AcksAt s) : a.AcksAt s := by
  cases hj : a.job with
  | read addr buffer len => exact h addr buffer len hj
  | _ => simp [Activation.AcksAt, hj]

variable {addr : DeviceAddr} {buffer len : Word} (hj : a.job = .read addr buffer len)
include hj

/-- A row of the record of a `read`, for the position it stands at. -/
theorem Activation.AcksAt.row {p : DriverPos} (h : a.AcksAt s) (hp : a.pos = p) :
    ({ a with job := .read addr buffer len, pos := p } : Activation).AcksAt s := by
  subst hp
  rwa [← hj]

theorem Activation.AcksAt.of_row {p : DriverPos} (hp : a.pos = p)
    (h : ({ a with job := .read addr buffer len, pos := p } : Activation).AcksAt s) : a.AcksAt s := by
  subst hp
  rwa [← hj] at h

end

/-- The record is of the command in flight and the history alone. -/
theorem Relaxes.acksAt {a : Activation} {s t : State} (h : Relaxes s t) (hack : a.AcksAt s) : a.AcksAt t := by
  simpa only [Activation.AcksAt, h.inflight, h.history] using hack

/-- A move keeps the record: it neither receives a byte nor ends the received ones (R221). -/
theorem Move.acksAt {a b : Activation} {s u : State} (h : Move a s u b) (hr : a.InRange) (hb : a.BlockAt s)
    (hack : a.AcksAt s) : b.AcksAt u := by
  refine Activation.acksAt_of_read fun addr buffer len hjb => ?_
  have hj : a.job = .read addr buffer len := h.job.symm.trans hjb
  cases h with
  | poll => exact hack
  | sendStart =>
    refine .of_row hj rfl fun hnone => ?_
    rw [sending_inflight] at hnone
    cases hnone
  | sendWait hp hd =>
    obtain ⟨-, ⟨-, hnot, -⟩ | ⟨hin, -⟩⟩ := hb.row hp
    · simp [hd] at hnot
    · exact .of_row hj rfl (hack.row hj hp hin)
  | sendRead _ _ _ _ hp =>
    have hzero := hr.read_index_eq_zero hj (by rw [hp]; rfl)
    refine .of_row hj rfl ((hack.row hj hp).trans ?_)
    simp [hzero]
  | sendDone r hp hno => exact .of_row hj rfl fun hok => absurd hok (hno _ _ _ hj)
  | recvCommand hp => exact .of_row hj rfl ⟨nofun, fun _ => hack.row hj hp⟩
  | recvWait hp hd =>
    obtain ⟨-, ⟨-, hnot, -⟩ | ⟨hin, -⟩⟩ := hb.row hp
    · simp [hd] at hnot
    · exact .of_row hj rfl ((hack.row hj hp).1 hin)
  | recvData _ hp => exact .of_row hj rfl (hack.row hj hp)
  | storeNext hp => exact .of_row hj rfl (hack.row hj hp)
  | storeLast hp hl =>
    refine .of_row hj rfl fun _ => (hack.row hj hp).trans ?_
    rw [hj] at hl
    exact List.take_of_length_le (by rwa [acksOfRead_length])
  | _ => exact .of_row hj rfl trivial

/-- A completion keeps the record: a byte sent ends it, and a byte received adds its acknowledge bit (R183, R184). -/
theorem Activation.AcksAt.completion {a : Activation} {s : State} {c : Cmd} (hack : a.AcksAt s) (hr : a.InRange)
    (hb : a.BlockAt s) (hin : s.inflight = some c) : a.AcksAt (controllerStep c.completion s) := by
  refine Activation.acksAt_of_read fun addr buffer len hj => ?_
  have hdone := (completes_completion c s).inflight
  cases c with
  | wrByte sc =>
    refine .of_row hj (hb.sendWait_of_wrByte hin) fun _ => ?_
    have hhist : (controllerStep .completeWrByte s).history = _ := completeWrByte_history _ _ s
    exact (congrArg trailingAcks hhist).trans (trailingAcks_append_tx _ _ _)
  | rdByte k =>
    obtain ⟨hp, hk, -⟩ := hb.recvWait_of_rdByte hin
    have hlt := hr.read_index_lt hj (by rw [hp]; rfl)
    have hbefore := (hack.row hj hp).2 (by simp [hin])
    refine .of_row hj hp ⟨fun _ => ?_, fun hne => absurd hdone hne⟩
    obtain ⟨b, r, hhist, -⟩ := completeRdByte_history (masterAck s)
      (Config.busRx s.history (masterAck s) s.draws) (Config.anyByte s.draws) (Config.anyBool s.draws) s
    rw [hj] at hlt hk
    calc trailingAcks (controllerStep .completeRdByte s).history
        = trailingAcks s.history ++ [k] := by
          rw [← trailingAcks_append_rx, ← masterAck_of_rdByte hin]
          exact congrArg trailingAcks hhist
      _ = (acksOfRead (Job.read addr buffer len).length).take (a.index + 1) := by
          rw [take_succ_acksOfRead hlt, ← hk]
          exact congrArg (· ++ [k]) hbefore
  | stop => exact .of_row hj (hb.stopWait_of_stop hin) trivial

/-- An operation that has just been entered has received nothing. -/
theorem acksAt_of_entered {a : Activation} {s : State} (h : a.pos = .writePrescale ∨ a.pos = .waitFree) :
    a.AcksAt s := by
  refine Activation.acksAt_of_read fun addr buffer len hj => ?_
  obtain hp | hp := h
  · exact .of_row hj hp trivial
  · exact .of_row hj hp trivial

/-- Every step within R235 keeps the record of the acknowledge bits. -/
theorem step_acksAt {s t : State} (hi : DriverInvariant s) (hack : ∀ a, s.driver = some a → a.AcksAt s)
    (h : step s = .next t) (a : Activation) (ha : t.driver = some a) : a.AcksAt t := by
  cases hi.step_cases h with
  | hold _ hs => exact hs.block.relaxes.acksAt (hack a (hs.driver.symm.trans ha))
  | controller k _ he hs =>
    have has := hs.driver.symm.trans ha
    obtain ⟨hr, -, hb⟩ := hi.running a has
    refine hs.block.relaxes.acksAt ?_
    obtain hrelax | ⟨c, hin, rfl⟩ := controllerStep_relaxes he
    · exact hrelax.acksAt (hack a has)
    · exact (hack a has).completion hr hb hin
  | move a' b u _ has hm hs =>
    obtain ⟨hr, -, hb⟩ := hi.running a' has
    obtain rfl : b = a := Option.some.inj (hs.driver.symm.trans ha)
    exact hs.block.relaxes.acksAt (hm.acksAt hr hb (hack a' has))
  | ret => cases ha
  | begin c rest hd hprog => exact acksAt_of_entered (hi.entered hd hprog ha).2

/-- Settles O57: the record kept, what the bits asked for are, and the record at the STOP. -/
theorem readAcknowledgesAllButTheLast : Obligations.ReadAcknowledgesAllButTheLast :=
  ⟨fun _ _ hi hack h _ => step_acksAt hi hack h, fun _ => acksOfRead_eq_replicate,
    fun _ _ _ _ _ hack hj hp hok => hack.row hj hp hok⟩

end Sys2Proof.Machine
end

section
/-! PROOFS. What a `scan` records (R224, R231): every step keeps the addresses in range, ascending, and below the
candidate. -/

namespace Sys2Proof.Machine

/-- Only a `scan` records addresses. -/
theorem Activation.foundAt_of_scan {a : Activation} {s : State}
    (h : ∀ found maxFound, a.job = .scan found maxFound → a.FoundAt s) : a.FoundAt s := by
  cases hj : a.job with
  | scan found maxFound => exact h found maxFound hj
  | _ => simp [Activation.FoundAt, hj]

/-- What `FoundAt` says of a `scan`. -/
theorem Activation.foundAt_iff {a : Activation} {s : State} {found maxFound : Word}
    (hj : a.job = .scan found maxFound) :
    a.FoundAt s ↔
      (∀ j < a.count, ∃ b, Memory.read s.memory (found.toNat + j) = some b ∧ 0x08 ≤ b.toNat ∧ b.toNat ≤ 0x77 ∧
        (a.pos ≠ .ret → b.toNat < a.candidate.toNat)) ∧
      (∀ j k b c, j < k → k < a.count → Memory.read s.memory (found.toNat + j) = some b →
        Memory.read s.memory (found.toNat + k) = some c → b.toNat < c.toNat) := by
  simp only [Activation.FoundAt, hj]

/-- The record holds as long as the recorded bytes stay and the candidate does not fall behind them. -/
theorem Activation.FoundAt.of_le {a b : Activation} {s u : State} (h : a.FoundAt s) (hjob : b.job = a.job)
    (hcount : b.count = a.count) (hmem : u.memory = s.memory)
    (hcand : b.pos ≠ .ret → a.pos ≠ .ret ∧ a.candidate.toNat ≤ b.candidate.toNat) : b.FoundAt u := by
  refine Activation.foundAt_of_scan fun found maxFound hj => ?_
  obtain ⟨hrange, hascend⟩ := (Activation.foundAt_iff (hjob.symm.trans hj)).1 h
  rw [Activation.foundAt_iff hj, hcount, hmem]
  refine ⟨fun j hlt => ?_, hascend⟩
  obtain ⟨x, hx, hlow, hhigh, hbelow⟩ := hrange j hlt
  refine ⟨x, hx, hlow, hhigh, fun hne => ?_⟩
  obtain ⟨hne', hle⟩ := hcand hne
  exact Nat.lt_of_lt_of_le (hbelow hne') hle

/-- Recording the candidate, which lies above every address recorded before it (R224). -/
theorem Activation.FoundAt.record {a b : Activation} {s : State} {found maxFound : Word} (h : a.FoundAt s)
    (hr : a.InRange) (hj : a.job = .scan found maxFound) (hp : a.pos = .recordFound) (hjob : b.job = a.job)
    (hcount : b.count = a.count + 1) (hcand : b.pos ≠ .ret → a.candidate.toNat < b.candidate.toNat) :
    b.FoundAt (s.stored (a.job.buffer + a.count) (a.candidate.setWidth 8)) := by
  obtain ⟨hrange, hascend⟩ := (Activation.foundAt_iff hj).1 h
  obtain ⟨-, hlow, hhigh, -⟩ := hr.scan_bounds hj (by simp [hp])
  have hvalue : (a.candidate.setWidth 8).toNat = a.candidate.toNat := BitVec.toNat_setWidth_of_le (by decide)
  have hread (j : Nat) : Memory.read (s.stored (a.job.buffer + a.count) (a.candidate.setWidth 8)).memory
      (found.toNat + j) = if j = a.count then some (a.candidate.setWidth 8) else
        Memory.read s.memory (found.toNat + j) := by
    have hbuffer : a.job.buffer = found.toNat := by rw [hj]; rfl
    simp only [State.stored, Memory.read_write, hbuffer, Nat.add_left_cancel_iff]
  have hbefore : ∀ j < a.count, ∀ x, Memory.read s.memory (found.toNat + j) = some x →
      x.toNat < a.candidate.toNat := by
    intro j hlt x hx
    obtain ⟨y, hy, -, -, hbelow⟩ := hrange j hlt
    obtain rfl : x = y := Option.some.inj (hx.symm.trans hy)
    exact hbelow (by simp [hp])
  rw [Activation.foundAt_iff (hjob.trans hj), hcount]
  constructor
  · intro j hlt
    rw [hread]
    by_cases hlast : j = a.count
    · exact ⟨_, if_pos hlast, by omega, by omega, fun hne => by rw [hvalue]; exact hcand hne⟩
    · obtain ⟨x, hx, hxlow, hxhigh, -⟩ := hrange j (by omega)
      rw [if_neg hlast]
      exact ⟨x, hx, hxlow, hxhigh, fun hne => Nat.lt_trans (hbefore j (by omega) x hx) (hcand hne)⟩
  · intro j k x y hjk hk hx hy
    rw [hread, if_neg (by omega)] at hx
    rw [hread] at hy
    by_cases hlast : k = a.count
    · rw [if_pos hlast] at hy
      obtain rfl := Option.some.inj hy
      rw [hvalue]
      exact hbefore j (by omega) x hx
    · rw [if_neg hlast] at hy
      exact hascend j k x y hjk (by omega) hx hy

/-- Every move keeps the record of a `scan`. -/
theorem Move.foundAt {a b : Activation} {s u : State} (h : Move a s u b) (hr : a.InRange) (hfound : a.FoundAt s) :
    b.FoundAt u := by
  refine Activation.foundAt_of_scan fun found maxFound hjb => ?_
  have hj : a.job = .scan found maxFound := h.job.symm.trans hjb
  cases h with
  | poll => exact hfound
  | delaySettle | stopped => exact hfound.of_le rfl rfl rfl (absurd rfl)
  | sendStart hp =>
    refine hfound.of_le rfl rfl ?_ fun _ => ⟨by simp [hp], Nat.le_refl _⟩
    unfold State.sending
    split <;> rfl
  | storeNext hp | storeLast hp =>
    obtain ⟨_, _, _, hread, -⟩ := hr.read_of_storeByte hp
    simp [hj] at hread
  | probe _ _ _ hp hc =>
    obtain ⟨-, -, hhigh, -⟩ := hr.scan_bounds hj (by simp [hp])
    obtain ⟨hsucc, -⟩ := candidate_succ hc hhigh
    exact hfound.of_le rfl rfl rfl fun _ => ⟨by simp [hp], by dsimp only; omega⟩
  | recordLast hp => exact hfound.record hr hj hp rfl rfl (absurd rfl)
  | recordNext hp _ hc =>
    obtain ⟨-, -, hhigh, -⟩ := hr.scan_bounds hj (by simp [hp])
    obtain ⟨hsucc, -⟩ := candidate_succ hc hhigh
    exact hfound.record hr hj hp rfl rfl fun _ => by dsimp only; omega
  | writePrescale | waitFree | sendData | sendWait | sendMore | sendRead | sendDone | fetchByte | recvCommand | recvWait
      | recvData | stopCommand | stopWait | found =>
    exact hfound.of_le rfl rfl rfl fun _ => ⟨by simp [*], Nat.le_refl _⟩

/-- Every step within R235 keeps the record of a `scan`. -/
theorem step_foundAt {s t : State} (hi : DriverInvariant s) (hfound : ∀ a, s.driver = some a → a.FoundAt s)
    (h : step s = .next t) (a : Activation) (ha : t.driver = some a) : a.FoundAt t := by
  have same {u : State} (hu : a.FoundAt u) (hmem : t.memory = u.memory) : a.FoundAt t :=
    hu.of_le rfl rfl hmem fun hne => ⟨hne, Nat.le_refl _⟩
  cases hi.step_cases h with
  | hold _ hs => exact same (hfound a (hs.driver.symm.trans ha)) hs.memory
  | controller k _ he hs =>
    exact same (hfound a (hs.driver.symm.trans ha)) (hs.memory.trans (controllerStep_effect he).memory)
  | move a' b u _ has hm hs =>
    obtain ⟨hr, -, -⟩ := hi.running a' has
    obtain rfl : b = a := Option.some.inj (hs.driver.symm.trans ha)
    exact same (hm.foundAt hr (hfound a' has)) hs.memory
  | ret => cases ha
  | begin c rest hd hprog =>
    refine Activation.foundAt_of_scan fun found maxFound hj => ?_
    obtain ⟨hcount, -⟩ := hi.entered hd hprog ha
    rw [Activation.foundAt_iff hj, hcount]
    exact ⟨nofun, nofun⟩

/-- Settles O58: the record kept, and the count as the invariant bounds it. -/
theorem scanRecordsAscendingAddresses : Obligations.ScanRecordsAscendingAddresses := by
  refine ⟨fun s t hi hfound h _ => step_foundAt hi hfound h, fun s a found maxFound hi ha hj => ?_⟩
  obtain ⟨hr, -, -⟩ := hi.running a ha
  simp only [Activation.InRange, hj] at hr
  obtain ⟨-, hcount, hmax, -⟩ := hr
  exact ⟨hcount, hmax⟩

end Sys2Proof.Machine
end

section
/-! PROOFS. What a recorded fault leaves (R267, R268): the access that records it has no other effect, and no agent has
a step after it. -/

namespace Sys2Proof.Machine

/-- A step from a faulted state answers the first reason recorded (log 1). -/
theorem stepBy_of_faults {sched : Nat → Turn} {s : State} {r : FaultReason} {rest : List FaultReason}
    (hf : s.faults = r :: rest) : stepBy sched s = .fault (.quiescent r) := by
  simp [stepBy, hf]

theorem hostEnabled_of_faults {s : State} (hf : s.faults ≠ []) : hostEnabled s = false := by
  simp [hostEnabled, hf]

/-- Settles O14: neither the host nor the controller is enabled, and the step looks at the faults first. -/
theorem faultedStateIsQuiescent : Obligations.FaultedStateIsQuiescent := by
  intro s r rest hf
  have hne : s.faults ≠ [] := by simp [hf]
  exact ⟨stepBy_of_faults hf, hostEnabled_of_faults hne, fun _ _ => enabled_of_faults hne⟩

/-- An access leaves the recorded faults, or records one reason and leaves the rest of the state (R267, R268). -/
theorem ExecEffect.faults {i : Instr} {s u : State} (h : ExecEffect s i u) :
    u.faults = s.faults ∨ ∃ r, u = s.recordFault r := by
  cases h with
  | fault _ r => exact .inr ⟨r, rfl⟩
  | _ => exact .inl rfl

/-- Settles O31: an access that changes the faults has recorded a reason, which is all that it does. -/
theorem faultingAccessChangesNothingElse : Obligations.FaultingAccessChangesNothingElse := by
  intro i s t h hne
  exact (exec_effect h).faults.resolve_left hne

end Sys2Proof.Machine
end

section
/-! PROOFS. The result code BUSY (R266): no operation holds it, and none returns it. -/

namespace Sys2Proof.Machine

/-! The result an operation holds, and what it returns. -/

theorem classify_ne_busy (v : Word) : classify v ≠ .busy := by
  unfold classify
  split
  · nofun
  · split
    · nofun
    · split <;> nofun

theorem afterSend_result (a : Activation) : a.afterSend.result = a.result := by
  unfold Activation.afterSend
  split
  · rfl
  · split <;> rfl
  · split <;> rfl
  · rfl

/-- The classification after `send_byte` gives an operation a new result; every other position keeps the one held
(R215, R216, R233). -/
theorem next_result (a : Activation) (v : Word) :
    (a.next v).result = if a.pos = .sendClassify then classify v else a.result := by
  cases hp : a.pos <;> simp only [Activation.next, hp, reduceCtorEq, if_true, if_false]
  case waitFree | sendWait | recvWait | stopWait | storeByte => split <;> rfl
  case sendClassify => exact afterSend_result _
  case stopFree =>
    split
    · exact afterStop_result a
    · rfl
  case recordFound =>
    split
    · rfl
    · exact nextCandidate_result _
  all_goals rfl

theorem next_result_ne_busy {a : Activation} (v : Word) (h : a.result ≠ .busy) : (a.next v).result ≠ .busy := by
  rw [next_result]
  split
  · exact classify_ne_busy v
  · exact h

theorem returned_ne_busy {a : Activation} (h : a.result ≠ .busy) : a.returned ≠ .status .busy := by
  unfold Activation.returned
  split
  · nofun
  · simpa using h
  · simpa using h
  · nofun

/-- The host returns from the running operation alone (R228). -/
theorem hostAction_ret {s : State} {r : Returned} (h : hostAction s = .ret r) :
    ∃ a, s.driver = some a ∧ r = a.returned := by
  cases hd : s.driver with
  | none =>
    simp only [hostAction, hd] at h
    split at h <;> cases h
  | some a =>
    rw [hostAction_of_driver hd] at h
    refine ⟨a, rfl, ?_⟩
    cases hp : a.pos <;> simp only [Activation.action, hp, reduceCtorEq, HostAction.ret.injEq] at h
    exact h.symm

/-! Entering a call: a guarded return, or an operation at its first position, which holds OK (R219 to R224). -/

theorem enterWrite_cases (addr : DeviceAddr) (data len : Word) :
    enterWrite addr data len = .inl (.status .error) ∨
      enterWrite addr data len = .inr (.start (.write addr data len) .waitFree) := by
  unfold enterWrite
  split
  · exact .inl rfl
  · exact .inr rfl

theorem enterRead_cases (addr : DeviceAddr) (buffer len : Word) :
    enterRead addr buffer len = .inl (.status .error) ∨
      enterRead addr buffer len = .inr (.start (.read addr buffer len) .waitFree) := by
  unfold enterRead
  split
  · exact .inl rfl
  · exact .inr rfl

theorem enter_cases (slot : Word) (c : Call) :
    (∃ r, c.enter slot = .inl r ∧ (r = .status .error ∨ r = .count 0)) ∨
      ∃ job pos, c.enter slot = .inr (.start job pos) := by
  cases c with
  | init p => exact .inr ⟨_, _, rfl⟩
  | write addr data len =>
    exact (enterWrite_cases addr data len).imp (fun h => ⟨_, h, .inl rfl⟩) fun h => ⟨_, _, h⟩
  | read addr buffer len =>
    exact (enterRead_cases addr buffer len).imp (fun h => ⟨_, h, .inl rfl⟩) fun h => ⟨_, _, h⟩
  | writeByte addr b =>
    exact (enterWrite_cases addr slot 1#32).imp (fun h => ⟨_, h, .inl rfl⟩) fun h => ⟨_, _, h⟩
  | readByte addr p =>
    exact (enterRead_cases addr p 1#32).imp (fun h => ⟨_, h, .inl rfl⟩) fun h => ⟨_, _, h⟩
  | scan found maxFound =>
    rw [Call.enter]
    split
    · exact .inl ⟨_, rfl, .inr rfl⟩
    · exact .inr ⟨_, _, rfl⟩

/-! Every step keeps BUSY out of the results. -/

/-- No running operation holds BUSY, and none has returned it (R266). -/
structure NeverBusy (s : State) : Prop where
  held : ∀ a, s.driver = some a → a.result ≠ .busy
  returned : Returned.status .busy ∉ s.results

section
variable {s t : State} (hs : NeverBusy s)
include hs

theorem NeverBusy.of_same (hd : t.driver = s.driver) (hr : t.results = s.results) : NeverBusy t where
  held := by simpa only [hd] using hs.held
  returned := by simpa only [hr] using hs.returned

theorem NeverBusy.hostAdvance : NeverBusy (hostAdvance s) := by
  obtain h | ⟨-, ⟨a, ha, h⟩ | ⟨-, h⟩⟩ := hostAdvance_cases s <;> rw [h]
  · exact hs
  · refine ⟨fun b hb => ?_, hs.returned⟩
    obtain rfl := Option.some.inj hb
    exact next_result_ne_busy _ (hs.held a ha)
  · exact ⟨hs.held, hs.returned⟩

theorem NeverBusy.registerAccess {d : Descriptor} (h : registerAccess d s = .next t) : NeverBusy t := by
  obtain ⟨i, u, -, he, rfl⟩ := registerAccess_next h
  obtain ⟨-, hdriver, hresults, -⟩ := (exec_effect he).sameHost
  exact NeverBusy.hostAdvance (hs.of_same hdriver hresults)

theorem NeverBusy.ramAccess {a : HostAccess} (h : ramAccess a s = .next t) : NeverBusy t := by
  obtain ⟨-, ⟨-, rfl⟩ | ⟨-, v, n, rfl⟩⟩ := ramAccess_cases h
  · exact hs.of_same rfl rfl
  · exact hs.of_same rfl rfl

theorem NeverBusy.memoryAccess {base : Nat} {a : HostAccess} (h : memoryAccess base a s = .next t) : NeverBusy t := by
  obtain ⟨d, -, hr⟩ | ⟨-, rfl⟩ | ⟨-, u, hu, rfl⟩ := memoryAccess_next h
  · exact hs.registerAccess hr
  · exact hs.of_same rfl rfl
  · exact (hs.ramAccess hu).hostAdvance

theorem NeverBusy.append_result {r : Returned} (hr : r ≠ .status .busy) : .status .busy ∉ s.results ++ [r] := by
  simpa [hr.symm] using hs.returned

theorem NeverBusy.beginCall (c : Call) : NeverBusy (beginCall c s) := by
  obtain ⟨-, hdriver, hresults, -⟩ := placeArgument_host (byteAddress (Config.anyAddress s.draws)) c s
  obtain ⟨r, henter, hr⟩ | ⟨job, pos, henter⟩ := enter_cases (byteAddress (Config.anyAddress s.draws)) c
  all_goals simp only [Machine.beginCall, henter, hdriver, hresults]
  · refine ⟨hs.held, hs.append_result ?_⟩
    obtain rfl | rfl := hr <;> nofun
  · refine ⟨fun a ha => ?_, hs.returned⟩
    obtain rfl := Option.some.inj ha
    nofun

theorem NeverBusy.returnCall {r : Returned} (hr : r ≠ .status .busy) : NeverBusy (returnCall r s) :=
  ⟨nofun, hs.append_result hr⟩

theorem NeverBusy.hostTurn (h : hostTurn s = .next t) : NeverBusy t := by
  cases hostTurn_effect h with
  | hold => exact hs
  | register d _ _ hr => exact hs.registerAccess hr
  | memory a _ _ hm => exact hs.memoryAccess hm
  | delaySettle => exact hs.hostAdvance
  | begin c => exact hs.beginCall c
  | ret r hret =>
    obtain ⟨a, ha, rfl⟩ := hostAction_ret hret
    exact hs.returnCall (returned_ne_busy (hs.held a ha))

theorem NeverBusy.controllerTurn {k : ControllerStep} (h : controllerTurn k s = .next t) : NeverBusy t := by
  obtain ⟨-, rfl⟩ | rfl := controllerTurn_cases h
  · obtain ⟨⟨-, hdriver, hresults, -⟩, -⟩ := sameSurroundings_controllerStep k s
    exact hs.of_same hdriver hresults
  · exact hs

theorem NeverBusy.step (h : step s = .next t) : NeverBusy t := by
  obtain ⟨-, u, hu, rfl⟩ := step_next h
  have hu' : NeverBusy u := by
    cases ht : s.turn with
    | host =>
      rw [ht] at hu
      exact hs.hostTurn hu
    | controller k =>
      rw [ht] at hu
      exact hs.controllerTurn hu
  exact hu'.of_same rfl rfl

end

/-- Settles O60: no classification is BUSY, and neither are a guarded return and the result an operation starts with. -/
theorem noOperationReturnsBusy : Obligations.NoOperationReturnsBusy := by
  refine ⟨rfl, fun s t hheld hreturned h => ?_⟩
  obtain ⟨hheld', hreturned'⟩ := NeverBusy.step ⟨hheld, hreturned⟩ h
  exact ⟨hheld', hreturned'⟩

end Sys2Proof.Machine
end

section
/-! PROOFS. The base cases of the two invariants: the reset state (R290), and the boot order (R292). -/

namespace Sys2Proof.Machine

/-- Settles O11: at reset nothing is held, in flight, hung, settled or faulted, so no clause is about a drawn value. -/
theorem resetMeetsBlockInvariant : Obligations.ResetMeetsBlockInvariant := fun _ => {
  owned_busy := nofun
  owned_configured := nofun
  inflight_configured := nofun
  inflight_flags := nofun
  sending_owned := nofun
  receiving_owned := nofun
  hung_inflight := nofun
  settled_set := nofun
  one_fault := Nat.zero_le 1
  memory_wf := rfl }

/-- A program of calls within R235 is valid. -/
theorem ProgramValid.of_calls {s : State} {calls : List Call} (hp : s.program = calls.map .call)
    (hv : ∀ c ∈ calls, c.Valid) : ProgramValid s := by
  intro op hop
  rw [hp] at hop
  obtain ⟨c, hc, rfl⟩ := List.mem_map.1 hop
  exact ⟨c, rfl, hv c hc⟩

/-- Settles O53: no operation runs at reset, the block is unengaged, and the program is one of valid calls that begins
with `init`. -/
theorem bootOrderMeetsTheDriverInvariant : Obligations.BootOrderMeetsTheDriverInvariant := by
  intro d p calls hp hcalls
  have hvalid : ∀ c ∈ Call.init p :: calls, c.Valid := List.forall_mem_cons.2 ⟨hp, hcalls⟩
  refine .of_between rfl (.of_calls List.map_cons.symm hvalid) rfl ⟨⟨rfl, rfl⟩, .inr ?initFirst⟩
  exact .inr ⟨p, calls.map .call, rfl⟩

end Sys2Proof.Machine
end
